-- ==== Sys2Proof/Word.lean ====
section
/-! DEFINITION. The words of the engine and the plain records that its commands carry. -/
namespace Sys2Proof

/-- A byte of shelf, larder, cellar or a bit-stream. -/
abbrev Byte := BitVec 8

/-- A 32-bit register, counter or code. -/
abbrev Word := BitVec 32

/-- A queue entry's 64 bytes, also a cellar granule (R132, R249). -/
abbrev Entry := BitVec 512

/-- Sparse data by number: at most the listed keys differ from a default that the reader names. -/
abbrev Tbl (α : Type) := List (Nat × α)

/-- A logical tile of a cluster: where a slot acts (R12, R135). Clusters are numbered region × 4 + cluster. -/
structure Place where
  cl : Fin 32
  tile : Fin 16
deriving DecidableEq, Repr

/-- A command beat of a front port, its OP being the command itself (Table 12-2, R335). -/
structure CmdBeat where
  tag : BitVec 10
  mid : BitVec 12
  nwd : BitVec 2
  arg0 : BitVec 64
  arg1 : BitVec 64
deriving DecidableEq, Repr

/-- A write-data beat (Table 12-1). -/
structure WdBeat where
  tag : BitVec 10
  data : BitVec 256
deriving DecidableEq, Repr

/-- A segment of a chain image: its 128-byte header and its ciphertext bytes (R371). -/
structure Seg where
  hdr : BitVec 1024
  body : List Byte
deriving DecidableEq, Repr

/-- What a GCM decryption gave: whether the tag verified, and the plaintext (R372, R452). -/
structure Gcm where
  ok : Bool
  plain : List Byte
deriving DecidableEq, Repr

/-- One slice of a PARCEL_OPEN (R454). Tier 0 shelf, 1 larder, 2 cellar. -/
structure Slice where
  off : Nat
  len : Nat
  tier : Nat
  home : Fin 32
deriving DecidableEq, Repr

/-- A binding of a task, as dies tell each other of it: object-list index, object, version, size in bytes, tier (R258). -/
structure Bound where
  idx : Nat
  die : Nat
  slot : Nat
  ver : Bool
  size : Nat
  tier : Nat
deriving DecidableEq, Repr

/-- What a DISPATCH start message carries of a task to a die that reserved clusters (R318). -/
structure StartMsg where
  seq : Word
  context : BitVec 12
  part : BitVec 3
  desc : BitVec 512
  /-- object list: handle, and whether the role is output -/
  objs : List (Word × Bool)
  /-- for each object the version it was resolved to -/
  vers : List Nat
  /-- for each object its size in bytes, against which a step's bytes are checked (R172) -/
  sizes : List Nat := []
  /-- for each object its tier (R275) -/
  tiers : List Nat := []
  /-- the dies that hold its clusters and how many each, in task-relative order -/
  layout : List (Nat × Nat)
  /-- OUTSTANDING of its host queue at dispatch (R278) -/
  outst : Nat
  /-- sequence of the task that it follows early, on the clusters that one has (R285) -/
  after : Option Word := none
deriving DecidableEq, Repr

/-- What a receiver finds of a span frame: a bad CRC, a tag that fails under a good one, or neither (R509, R510). -/
inductive FrameCheck where
  | good
  | badCrc
  | badTag
deriving DecidableEq, Repr

/-- The words of a MAIL message, or with `reserved` the answer that an entry was reserved for it (R228, R500). -/
structure MailBody where
  words : BitVec 128
  reserved : Bool
deriving DecidableEq, Repr

/-- What an ARRIVE reports beside its epoch: whether the task has ended on the sending die, and the bindings made there (R235,
R258). -/
structure ArriveBody where
  ended : Bool
  binds : List Bound
deriving DecidableEq, Repr

/-- What a RELEASE carries: the full stop's epoch and the bindings that hold from it on (R239, R258). -/
structure ReleaseBody where
  epoch : Nat
  binds : List Bound
deriving DecidableEq, Repr

/-- What an ABORT carries: the task, and with `drained` the answer that its run has drained on the sending die (R294, R295). -/
structure AbortBody where
  task : Nat
  drained : Bool
deriving DecidableEq, Repr

/-- What a DISPATCH cancel message carries: the die that asks, and the task whose start it takes back, if any (R318). -/
structure CancelBody where
  src : Fin 16
  task : Option Nat
deriving DecidableEq, Repr

/-- A physical upset met inside a step, as the protection of Table 05-4 sees it. -/
inductive Upset where
  | clean
  | corrected
  | residue
  | parity
  | uncorrectable
deriving DecidableEq, Repr

/-- What an upset of the array adds to the difference that one lane's check compares: mant × 2^exp (R94, R96). -/
structure Deviation where
  lane : Fin 16
  mant : Int
  exp : Int
deriving DecidableEq, Repr

/-- What reaches the comparisons of a closed group besides the values computed: nothing in a sound array, an upset's
deviation of a row check (by column) and of a column check (by row) in one that is hit (R96). -/
structure Verdict where
  rowCheck : Option Deviation
  colCheck : Option Deviation
deriving DecidableEq, Repr

end Sys2Proof
end

