-- ==== Sys2Proof/Syntax.lean ====
section
/-! DEFINITION. The commands of the engine: one constructor per row of spec/opcode_table.json. The table gives no bits,
so each command carries, as typed operands, what the rule of its row says the event carries. Masters are 0 to 4,095 and
`who` 4,096 is the management endpoint. -/
namespace Sys2Proof

/-- A command or event of the engine (spec/opcode_table.json). -/
inductive Instr where
  /-- CTX_CREATE (R302) Host command that creates a context in a partition under the lowest free ID of the home die. -/
  | ctxCreate (port : Fin 4) (b : CmdBeat)
  /-- CTX_RESET (R300) Host command that resets a DRAINING or LOST context, and is held until LOST if it arrives while DRAINING. -/
  | ctxReset (port : Fin 4) (b : CmdBeat)
  /-- CTX_TEARDOWN (R300) Host command that moves a context to TEARDOWN, counts as a loss and frees its objects. -/
  | ctxTeardown (port : Fin 4) (b : CmdBeat)
  /-- HEARTBEAT (R324) Host command that only refreshes the master's heartbeat. -/
  | heartbeat (port : Fin 4) (b : CmdBeat)
  /-- QUEUE_OPEN (R302) Host command that binds an IDLE host queue to a context. -/
  | queueOpen (port : Fin 4) (b : CmdBeat)
  /-- QUEUE_CLOSE (R302) Host command that retires a queue's pending commands with CONTEXT_LOST and returns the queue to IDLE. -/
  | queueClose (port : Fin 4) (b : CmdBeat)
  /-- OBJ_ALLOC (R302) Host command that checks and allocates a scratch object, committed object or fence. -/
  | objAlloc (port : Fin 4) (b : CmdBeat)
  /-- OBJ_FREE (R326) Host command that frees an object and advances its generation at once. -/
  | objFree (port : Fin 4) (b : CmdBeat)
  /-- REF_ADD (R306) Host command that adds one tenant reference to an object. -/
  | refAdd (port : Fin 4) (b : CmdBeat)
  /-- REF_DROP (R306) Host command that removes one tenant reference and fails at zero. -/
  | refDrop (port : Fin 4) (b : CmdBeat)
  /-- PIN (R307) Host command that pins the current version of an object and returns the version and its cellar address, as one indivisible dispatcher step. -/
  | pin (port : Fin 4) (b : CmdBeat)
  /-- UNPIN (R307) Host command that removes one tenant pin from a named version. -/
  | unpin (port : Fin 4) (b : CmdBeat)
  /-- SHARE (R308) Host command from the owner that sets or clears SHARED on an object. -/
  | share (port : Fin 4) (b : CmdBeat)
  /-- DESC_READ (R338) Host command that returns an object descriptor in an answer beat followed by a continuation beat. -/
  | descRead (port : Fin 4) (b : CmdBeat)
  /-- SUBMIT (R314) Host command that checks a task descriptor and either accepts it with a sequence number or rejects it. -/
  | submit (port : Fin 4) (b : CmdBeat) (wd : List WdBeat)
  /-- FENCE_SIGNAL (R310) Host command that raises a fence value to the larger of its present value and the new value. -/
  | fenceSignal (port : Fin 4) (b : CmdBeat)
  /-- CTL_RD (R342) Front-port control-space read of the port's die. -/
  | ctlRd (port : Fin 4) (b : CmdBeat)
  /-- CTL_WR (R342) Front-port control-space write of the port's die. -/
  | ctlWr (port : Fin 4) (b : CmdBeat)
  /-- WRITE_DATA_BEAT (R337) A write-data beat is assigned to the oldest command awaiting data, or is discarded, and a tag mismatch rejects that command. -/
  | writeDataBeat (port : Fin 4) (w : WdBeat)
  /-- WD_TIMEOUT (R344) Write data still incomplete after WD_LIMIT; the command is rejected and its beats are discarded. -/
  | wdTimeout (port : Fin 4)
  /-- ANSWER_OFFER (R338) The engine offers the answer beat of a command once the previous answer has transferred. -/
  | answerOffer (port : Fin 4)
  /-- RESP_TIMEOUT (R345) RESP_READY stays low for RESP_LIMIT; the port becomes HUNG and its masters count as having missed their heartbeat. -/
  | respTimeout (port : Fin 4)
  /-- FRONT_CLEAR (R345) Management write of FRONT_CFG.CLEAR that ends the HUNG state with empty channels. -/
  | frontClear (port : Fin 4)
  /-- BEAT_WITHDRAWN (R332) A licensee sender withdraws a beat before transfer; no action is taken and PROTO counts it. -/
  | beatWithdrawn (port : Fin 4)
  /-- IRQ_PULSE (R343) A completion interrupt line pulses for a fence change, or for a merged change once its low time ends. -/
  | irqPulse (port : Fin 4) (line : Fin 16)
  /-- IDENTITY (R465) Management command that returns the identity report signed with the die's identity key. -/
  | identity (nonce : BitVec 256)
  /-- MGMT_CTL_RD (R464) Management control-space read as the management endpoint. -/
  | mgmtCtlRd (sess : Fin 2) (addr : BitVec 26)
  /-- MGMT_CTL_WR (R466) Management control-space write, which needs ADMIN except for PROBE_CTL. -/
  | mgmtCtlWr (sess : Fin 2) (addr : BitVec 26) (val : Word)
  /-- IMAGE_WRITE (R368) Management command that writes a new attic chain image in the order of R368. -/
  | imageWrite (sess : Fin 2) (hdr : BitVec 2048) (segs : List Seg)
  /-- SHAPE_LOAD (R384) Management command that offers a shape-only segment, which is checked and then held pending. -/
  | shapeLoad (sess : Fin 2) (hdr : BitVec 1024) (body : List Byte)
  /-- RESTART (R398) Authenticated restart; the head die sends K30.7 and returns to POWER. -/
  | restart (sess : Fin 2)
  /-- KEY_SET (R448) Management command that writes a key store slot, or programs the fuse key through slot 15. -/
  | keySet (sess : Fin 2) (slot : Fin 16) (key : BitVec 256)
  /-- KEY_CLEAR (R448) Management command that zeroes one key store slot. -/
  | keyClear (sess : Fin 2) (slot : Fin 8)
  /-- ANCHOR_SET (R449) Management command that programs an empty operator anchor fuse slot. -/
  | anchorSet (sess : Option (Fin 2)) (digest : BitVec 384)
  /-- PARCEL_OPEN (R454) Management command that starts opening a parcel into sealed slice objects. -/
  | parcelOpen (sess : Fin 2) (owner : BitVec 12) (src : Word) (nslice : Nat) (slices : List Slice)
  /-- PARCEL_OPEN_DONE (R454) Decryption ends and the slice objects become LIVE as sealed objects in one step, or are reclaimed on failure. -/
  | parcelOpenDone (readOk : Bool)
  /-- RESUME (R468) Management command that ends a fallback entered for failed authentications. -/
  | resume (sess : Fin 2)
  /-- KEY_EXCHANGE (R469) SPDM session establishment, refused during a lockout, with failures counted toward lockout. -/
  | keyExchange (valid : Bool) (root : BitVec 384) (roles : BitVec 5)
  /-- FINISH (R467) SPDM FINISH; a signature that fails verification counts as a failed authentication. -/
  | finish (sess : Fin 2) (ok : Bool)
  /-- END_SESSION (R447) SPDM session end; the session keys are zeroed and PROBE_EN clears if this session set it. -/
  | endSession (sess : Fin 2)
  /-- SESSION_TIMEOUT (R463) A session ends after 60 s without a message. -/
  | sessionTimeout (sess : Fin 2)
  /-- LOCKOUT_END (R469) The authentication lockout period expires. -/
  | lockoutEnd 
  /-- ENDPOINT_WATCHDOG_MISS (R467) The endpoint shell misses its watchdog for WD_MS and the root-of-trust processor enters fallback. -/
  | endpointWatchdogMiss 
  /-- FALLBACK_END (R468) Fallback for causes other than failed authentications ends after 1 s of watchdog answers. -/
  | fallbackEnd 
  /-- NOP (R149) The null verb of any slot, which issues in one ACLK cycle with no effect. -/
  | nop (at_ : Place) (slot : Fin 6)
  /-- SETI (R182) Counter verb that sets a counter to the sign-extended IMM7. -/
  | seti (at_ : Place)
  /-- ADDI (R182) Counter verb that adds the sign-extended IMM7 to a counter. -/
  | addi (at_ : Place)
  /-- SHLI (R182) Counter verb that shifts a counter left by an immediate. -/
  | shli (at_ : Place)
  /-- ORI (R182) Counter verb that ORs a zero-extended immediate into a counter. -/
  | ori (at_ : Place)
  /-- CT_MOV (R182) Counter verb MOV, which copies one counter to another. -/
  | ctMov (at_ : Place)
  /-- CT_ADD (R182) Counter verb ADD, a sum of counters modulo 2^32. -/
  | ctAdd (at_ : Place)
  /-- CT_SUB (R182) Counter verb SUB, a difference of counters modulo 2^32. -/
  | ctSub (at_ : Place)
  /-- CT_MUL (R182) Counter verb MUL, the low 32 bits of a product of counters. -/
  | ctMul (at_ : Place)
  /-- AND (R182) Counter verb for a bitwise AND of counters. -/
  | and_ (at_ : Place)
  /-- OR (R182) Counter verb for a bitwise OR of counters. -/
  | or_ (at_ : Place)
  /-- XOR (R182) Counter verb for a bitwise XOR of counters. -/
  | xor (at_ : Place)
  /-- SHL (R182) Counter verb for a left shift by a counter modulo 32. -/
  | shl (at_ : Place)
  /-- SHR (R182) Counter verb for a logical right shift by a counter modulo 32. -/
  | shr (at_ : Place)
  /-- INFO (R184) Counter verb that reads an identity item into a counter. -/
  | info (at_ : Place)
  /-- SETAB (R182) Counter verb that writes a base register from a counter. -/
  | setab (at_ : Place)
  /-- GETAB (R182) Counter verb that reads a base register into a counter. -/
  | getab (at_ : Place)
  /-- SETCP (R183) Counter verb that sets a comparator's counter, limit and relation. -/
  | setcp (at_ : Place)
  /-- SETK (R182) Counter verb that loads a constant register with a counter's bits. -/
  | setk (at_ : Place)
  /-- LDW (R185) Counter verb that reads one narrow shelf word into a counter. -/
  | ldw (at_ : Place)
  /-- LDW_WORD_ARRIVE (R185) The word of an LDW arrives in its counter and releases the counter slot. -/
  | ldwWordArrive (at_ : Place)
  /-- STW (R182) Counter verb that writes a counter to one narrow shelf word. -/
  | stw (at_ : Place)
  /-- ALLOC (R257) Allocator verb that allocates a store-room object for the cluster. -/
  | alloc (at_ : Place)
  /-- FREE (R257) Allocator verb that frees a handle, taking effect at commit. -/
  | free (at_ : Place)
  /-- BIND (R258) Allocator verb that binds a handle to an object-list slot for the rest of the run. -/
  | bind (at_ : Place)
  /-- AVAIL (R257) Allocator verb that returns the free granules of a tier. -/
  | avail (at_ : Place)
  /-- ALLOCATOR_RESULT_ARRIVE (R257) The result of an allocator verb arrives in CT[CDST], within 256 SCLK cycles. -/
  | allocatorResultArrive (at_ : Place)
  /-- MOV (R189) Vector verb that copies and converts elements, optionally gathering amax words. -/
  | mov (at_ : Place)
  /-- CVT (R196) Vector verb that performs a scaled conversion under R60. -/
  | cvt (at_ : Place)
  /-- CVTB4 (R197) Vector verb that converts to B4 codes with group records and side-list escapes. -/
  | cvtb4 (at_ : Place)
  /-- DECB4 (R200) Vector verb that decodes B4 codes with records and side list. -/
  | decb4 (at_ : Place)
  /-- ADD (R189) Vector floating addition, rounded once. -/
  | add (at_ : Place)
  /-- SUB (R189) Vector floating subtraction, rounded once. -/
  | sub (at_ : Place)
  /-- MUL (R189) Vector floating multiplication, rounded once. -/
  | mul (at_ : Place)
  /-- FMA (R189) Vector fused multiply-add, rounded once. -/
  | fma (at_ : Place)
  /-- MIN (R189) Vector lesser of two elements. -/
  | min (at_ : Place)
  /-- MAX (R189) Vector greater of two elements. -/
  | max (at_ : Place)
  /-- ABS (R189) Vector absolute value. -/
  | abs (at_ : Place)
  /-- NEG (R189) Vector negation. -/
  | neg (at_ : Place)
  /-- CMP (R191) Vector comparison under the relation selected by XOP. -/
  | cmp (at_ : Place)
  /-- SEL (R191) Vector selection of a or b by c. -/
  | sel (at_ : Place)
  /-- DIV (R189) Vector division. -/
  | div (at_ : Place)
  /-- SFU (R190) Vector special function selected by XOP. -/
  | sfu (at_ : Place)
  /-- RSUM (R193) Vector tree sum over runs of 16 elements. -/
  | rsum (at_ : Place)
  /-- RMAX (R193) Vector maximum over runs of 16 elements. -/
  | rmax (at_ : Place)
  /-- RMIN (R193) Vector minimum over runs of 16 elements. -/
  | rmin (at_ : Place)
  /-- SCALE (R195) Vector verb that turns amax words into (d, q) scale pairs. -/
  | scale (at_ : Place)
  /-- TRN (R194) Vector verb that transposes 16 x 16 blocks. -/
  | trn (at_ : Place)
  /-- IADD (R192) Vector INT32 addition. -/
  | iadd (at_ : Place)
  /-- ISUB (R192) Vector INT32 subtraction. -/
  | isub (at_ : Place)
  /-- IMUL (R192) Vector INT32 multiplication, keeping the low 32 bits. -/
  | imul (at_ : Place)
  /-- IAND (R192) Vector INT32 bitwise AND. -/
  | iand (at_ : Place)
  /-- IOR (R192) Vector INT32 bitwise OR. -/
  | ior (at_ : Place)
  /-- IXOR (R192) Vector INT32 bitwise XOR. -/
  | ixor (at_ : Place)
  /-- ISHL (R192) Vector INT32 left shift. -/
  | ishl (at_ : Place)
  /-- ISHR (R192) Vector INT32 arithmetic right shift. -/
  | ishr (at_ : Place)
  /-- EXT (R212) Vector verb that hands entries to the cluster's extension port and expects result entries. -/
  | ext (at_ : Place)
  /-- EXT_RESULT (R355) A result entry from the extension field is taken into XQ, or discarded as stale or unowed. -/
  | extResult (cl : Fin 32) (tile : Fin 16) (epoch : Fin 16) (data : Entry)
  /-- MMA (R201) Matrix verb that computes one 16 x 16 block under the group-exact dot product. -/
  | mma (at_ : Place)
  /-- MMA_K_STEP (R114) One k step issues in the matrix engine once operands, scales and a free bank are ready. -/
  | mmaKStep (at_ : Place)
  /-- ESCAPE_ENTRY_ARRIVE (R204) Side-list entries read for a group's escapes arrive and release the next group's k steps. -/
  | escapeEntryArrive (at_ : Place)
  /-- CHECKSUM_VERDICT (R94) The checksum comparison of a group completes and either passes, is exempt, or fails as a tile fault. -/
  | checksumVerdict (at_ : Place) (v : Verdict) (u : Upset)
  /-- BLOCK_DRAIN (R119) The output converter begins draining a finished block into MC. -/
  | blockDrain (at_ : Place)
  /-- LD (R207) Load verb that moves memory into a destination queue through a descriptor. -/
  | ld (at_ : Place)
  /-- LDB (R208) Load verb that broadcasts one shared read per step to every tile of the cluster. -/
  | ldb (at_ : Place)
  /-- LDZ (R209) Load verb that pushes zero entries. -/
  | ldz (at_ : Place)
  /-- FILL (R210) Load verb that copies larder or object bytes into the shelf. -/
  | fill (at_ : Place)
  /-- ST (R207) Store verb that writes queue entries to memory. -/
  | st (at_ : Place)
  /-- SPILL (R210) Store verb that copies shelf bytes to larder or an object. -/
  | spill (at_ : Place)
  /-- SLOT_STEP (R156) One step of an issued verb pops its sources and pushes its results, or stalls. -/
  | slotStep (at_ : Place) (slot : Fin 6) (u : Upset)
  /-- READ_RETURN (R248) The data of a memory read returns and becomes poppable. -/
  | readReturn (at_ : Place) (slot : Fin 6) (idx : Nat) (u : Upset)
  /-- WRITE_VISIBLE (R248) A memory write becomes visible to later ordered accesses. -/
  | writeVisible (at_ : Place) (slot : Fin 6) (idx : Nat)
  /-- WAITT (R162) Sync verb that waits for a token value at a queue head. -/
  | waitt (at_ : Place)
  /-- WAITNT (R162) Sync verb that waits for a token other than TVAL at a queue head. -/
  | waitnt (at_ : Place)
  /-- DRAIN (R163) Sync verb that waits for the named slots' earlier accesses to complete. -/
  | drain (at_ : Place)
  /-- WAITN (R211) Sync verb that waits until a queue holds enough entries. -/
  | waitn (at_ : Place)
  /-- WAITF (R211) Sync verb that waits until a queue has enough free entries. -/
  | waitf (at_ : Place)
  /-- WAITP (R211) Sync verb that waits on a predicate bit. -/
  | waitp (at_ : Place)
  /-- WAITX (R211) Sync verb that waits until earlier EXT issues have all their results. -/
  | waitx (at_ : Place)
  /-- PARAGRAPH_LOAD (R219) The sequencer loads sequencer values, descriptors, mask and clauses at task start or re-run. -/
  | paragraphLoad (cl : Fin 32)
  /-- CLAUSE_BROADCAST (R220) The sequencer broadcasts one clause when every clause queue has room. -/
  | clauseBroadcast (cl : Fin 32)
  /-- LOOP (R222) SEQCTL operation that opens a loop of SV[ARG] iterations. -/
  | loop (cl : Fin 32)
  /-- ENDL (R223) SEQCTL operation that closes the innermost loop or jumps back to its body. -/
  | endl (cl : Fin 32)
  /-- MASK (R223) SEQCTL operation that sets the tile mask. -/
  | mask (cl : Fin 32)
  /-- SEND (R228) SEQCTL operation that sends a mailbox message once an entry is reserved. -/
  | send (cl : Fin 32)
  /-- RECV (R229) SEQCTL operation that waits for a message and writes sequencer values. -/
  | recv (cl : Fin 32)
  /-- END (R223) SEQCTL operation that ends the paragraph after its clause. -/
  | endPara (cl : Fin 32)
  /-- MAIL_AVAILABLE (R228) A sent message becomes available to RECV in the destination mailbox. -/
  | mailAvailable (cl : Fin 32) (idx : Nat)
  /-- BARRIER_ARRIVE (R232) A cluster arrives at punctuation once its tiles have drained. -/
  | barrierArrive (cl : Fin 32)
  /-- COMMA_RELEASE (R236) A comma releases all tiles of its cluster. -/
  | commaRelease (cl : Fin 32)
  /-- SEMICOLON_RELEASE (R237) A semicolon releases its region's participants in staggered slots. -/
  | semicolonRelease (region : Fin 8)
  /-- FULL_STOP_RELEASE (R238) The barrier master releases a full stop, staggered across clusters, dies and packages. -/
  | fullStopRelease (task : Nat)
  /-- CLUSTER_END (R293) A cluster ends after its paragraph ends and all verdicts, reads and write responses have arrived. -/
  | clusterEnd (cl : Fin 32)
  /-- TASK_COMMIT (R265) The commit die writes the commit record, flips the outputs, advances the fence and posts the completion. -/
  | taskCommit (task : Nat) (cut : Fin 4)
  /-- COMMIT_REDO (R267) Steps 3-5 of an interrupted commit are repeated from its record before further dispatch. -/
  | commitRedo (task : Nat)
  /-- TASK_DISPATCH (R317) A queue head dispatches onto idle clusters and resolves its object versions. -/
  | taskDispatch (q : Fin 1024)
  /-- FOLLOW_ON_START (R285) Under FILL_BATCH a follow-on task starts on a cluster as soon as its predecessor ends there. -/
  | followOnStart (q : Fin 1024) (cl : Fin 32)
  /-- STAGE_COPY_DONE (R291) The FILL_WEIGHTS stage copy of a follow-on's weight slices completes. -/
  | stageCopyDone (cl : Fin 32) (ok : Bool)
  /-- WIPE_DONE (R319) The 4 us working-space wipe before a context change ends and the cluster is released. -/
  | wipeDone (cl : Fin 32)
  /-- BUDGET_EXPIRE (R320) A cluster reaches the task budget; the run is aborted and the task ends with TIMEOUT. -/
  | budgetExpire (cl : Fin 32)
  /-- WAIT_LIMIT_EXPIRE (R330) A queue head blocked by a wait for WAIT_LIMIT ends with TIMEOUT. -/
  | waitLimitExpire (q : Fin 1024)
  /-- WAIT_CYCLE_SCAN (R328) The 1 ms scan of wait edges that breaks each cycle found with a WAIT_CYCLE victim. -/
  | waitCycleScan 
  /-- HEARTBEAT_MISS (R324) No command arrives from a master for HB_LIMIT; its contexts are torn down. -/
  | heartbeatMiss (m : BitVec 12)
  /-- FENCE_POISON (R323) After a lost context's commits and aborts end, every fence it owns is poisoned. -/
  | fencePoison (context : BitVec 12)
  /-- RECLAIM_DONE (R305) A freed or removed object's storage has been zeroed and it becomes FREE or RETIRED. -/
  | reclaimDone (slot : BitVec 16)
  /-- ABORT_DRAIN_END (R295) Every transfer of an aborted run has completed or been discarded, and the retry decision follows. -/
  | abortDrainEnd (task : Nat)
  /-- SPARE_COPY_DONE (R425) The copy of a failed tile's shelf into the spare ends and the substitution takes effect. -/
  | spareCopyDone (cl : Fin 32) (badWord : Option (BitVec 19))
  /-- RERUN_RELEASE (R429) The re-run of a task is released from its checkpoint. -/
  | rerunRelease (task : Nat)
  /-- SPARE_RELEASE (R145) Write of SPARE_MAP.RELEASE that requests the end of a run-time substitution at the next task boundary. -/
  | spareRelease (cl : Fin 32)
  /-- SPARE_COPY_BACK_DONE (R426) The copy of the spare's shelf back to the original tile ends at a task boundary. -/
  | spareCopyBackDone (cl : Fin 32) (ok : Bool)
  /-- NETWORK_FAULT (R421) A parity error or internal timeout in the on-die network or dispatcher is a class 11 fault. -/
  | networkFault (task : Nat)
  /-- CELLAR_STEP_GRANT (R277) Each SCLK cycle the die grants offered cellar steps under the buckets and the 16-granule limit. -/
  | cellarStepGrant 
  /-- CELLAR_PORT_ARBITRATE (R252) A cellar port picks an owner class by credits and issues one granule. -/
  | cellarPortArbitrate (port : Fin 16)
  /-- CELLAR_READ_RESPONSE (R349) A cellar read response arrives, completing the access or raising a fault. -/
  | cellarReadResponse (port : Fin 16) (tag : BitVec 8) (err : BitVec 2) (data : Entry)
  /-- CELLAR_WRITE_RESPONSE (R349) A cellar write response arrives, completing the write or raising a fault. -/
  | cellarWriteResponse (port : Fin 16) (tag : BitVec 8) (err : BitVec 2)
  /-- CELLAR_TAG_TIMEOUT (R351) A tag outstanding for CELLAR_LIMIT is quarantined, and 64 quarantined tags take the port down. -/
  | cellarTagTimeout (port : Fin 16) (tag : BitVec 8)
  /-- QSTREAM_WRITE (R278) A write of a queue's QSTREAM refills the affected bucket and takes effect from the next cycle. -/
  | qstreamWrite (who : Fin 4097) (q : Fin 1024) (word : Fin 2) (val : Word)
  /-- SHAPE_APPLY (R39) A pending shape is applied to the whole die once the affected clusters are idle at a full stop. -/
  | shapeApply 
  /-- POWER_GOOD (R393) Power good starts the die in POWER with its outputs held off. -/
  | powerGood (head inpkg : Bool)
  /-- ROOT_LOCK (R471) The root clock generator locks and MCLK takes over as the configuration clock. -/
  | rootLock 
  /-- POWER_STATE_END (R393) POWER ends after 20,000 oscillator cycles and the die moves on to ATTIC or RECEIVE. -/
  | powerStateEnd (idOk : Bool)
  /-- CHAIN_STREAM (R392) A chain stream is received, the die's own segment is kept and the rest is forwarded. -/
  | chainStream (pos : Byte) (segs : List Seg)
  /-- SEGMENT_RECEIVED (R380) A segment's last byte has arrived and the checks of steps 2-9f complete. -/
  | segmentReceived (last : List Byte)
  /-- FRAME_WRITE (R380) Frames are written and read back, and the shadow, map and shape are applied. -/
  | frameWrite (verified : Bool)
  /-- GAP_LIMIT_EXPIRE (R381) No chain byte arrives for 10 ms and the segment ends early. -/
  | gapLimitExpire 
  /-- CHAIN_CODING_ERROR (R392) A coding error or bad POSITION byte makes the die ignore the rest of the stream. -/
  | chainCodingError 
  /-- CHAIN_RESTART (R398) K30.7 reaches a die not in SERVING, which forwards it and returns to POWER. -/
  | chainRestart 
  /-- DONE_HIGH (R396) DONE read high for 16 MCLK cycles starts the staged release. -/
  | doneHigh 
  /-- DONE_LATE (R396) After 1 s in WAIT_DONE the die sets DONE_LATE and goes on waiting. -/
  | doneLate 
  /-- RELEASE_STAGE (R400) Each 64-MCLK release stage opens clamps, write enables, resets and then service. -/
  | releaseStage 
  /-- RELOAD_REQUEST (R402) Write of RELOAD.GO that requests a partial reload of a region, or is rejected. -/
  | reloadRequest (who : Fin 4097) (region : Fin 8)
  /-- RELOAD_DRAIN_END (R403) The region's runs have ended and the reload enters loading. -/
  | reloadDrainEnd 
  /-- RELOAD_LOAD_DONE (R403) The region's frames are written, its SRAM zeroed and the region released, or the reload fails. -/
  | reloadLoadDone (fabricOk shellsOk : Bool)
  /-- MAP_SCRUB_FRAME (R409) The map reader checks one fabric frame against the shadow at its interval. -/
  | mapScrubFrame (flips : BitVec 4096)
  /-- PRIV_SCRUB_FRAME (R413) The privileged reader checks one shell frame and corrects single-bit flips. -/
  | privScrubFrame (flips : BitVec 4096)
  /-- EXT_END_READ (R412) A cluster's extension-field frames are read back at the end of a run that used EXT. -/
  | extEndRead (cl : Fin 32) (index : Fin 128) (flips : BitVec 4096)
  /-- SCRUB_VOTE (R415) The majority vote over scrubber register copies rewrites a disagreeing copy. -/
  | scrubVote (copy : Fin 3) (val : Word)
  /-- SCRUB_REFRESH (R415) Every 10 ms the scrubber registers are reloaded from hard-block frame 15. -/
  | scrubRefresh 
  /-- SHELL_RELOAD_DONE (R417) The privileged shells are reloaded, contexts are lost, and the scrubbers and front ports resume. -/
  | shellReloadDone (ok : Bool)
  /-- COOLANT_LOSS (R432) COOLANT_OK low for 250 MCLK cycles stops every run and the ACLK of the package. -/
  | coolantLoss 
  /-- COOLANT_RETURN (R434) COOLANT_OK high for 1 ms re-runs the stopped tasks and resumes dispatch. -/
  | coolantReturn 
  /-- NEIGHBOUR_EVAL (R486) Every 125 MCLK cycles neighbour pairs are evaluated and throttles start or end. -/
  | neighbourEval (temps : List (BitVec 8)) (supplies : List (BitVec 10))
  /-- THERMAL_TRIP (R487) A region above 110 C for 250 MCLK cycles stops the package as for coolant loss. -/
  | thermalTrip (region : Fin 8)
  /-- DROOP_TRIP (R483) A region's supply droops past its threshold and its ACLK is stretched. -/
  | droopTrip (region : Fin 8) (supply : BitVec 10)
  /-- DROOP_END (R483) The stretch ends 64 cycles after the supply recovers. -/
  | droopEnd (region : Fin 8)
  /-- GOVERNOR_WINDOW (R489) Each 1 ms the governor moves the cap step from the measured power. -/
  | governorWindow (milliwatts : BitVec 20)
  /-- POWER_WINDOW (R492) Each 10 ms window updates POWER_STATUS.POWER. -/
  | powerWindow (milliwatts : BitVec 20)
  /-- DOMAIN_ON (R481) DOMAIN_CTL request to raise a power domain. -/
  | domainOn (who : Fin 4097) (domain : BitVec 8)
  /-- DOMAIN_OFF (R482) DOMAIN_CTL request to lower a power domain, refused for an active cluster. -/
  | domainOff (who : Fin 4097) (domain : BitVec 8)
  /-- DOMAIN_SEQ_DONE (R477) A domain's RISING or FALLING sequence completes. -/
  | domainSeqDone (domain : BitVec 8)
  /-- CAPACITY_WITHDRAW (R437) CAPACITY operation that withdraws a region or die from service. -/
  | capacityWithdraw (who : Fin 4097) (wholeDie : Bool) (region : Fin 8)
  /-- CAPACITY_RESTORE (R438) CAPACITY operation that restores a region or die to service. -/
  | capacityRestore (who : Fin 4097) (wholeDie : Bool) (region : Fin 8)
  /-- CAPACITY_TAKE_EFFECT (R437) At a full-stop epoch with the unit idle, the withdrawal or restoration takes effect. -/
  | capacityTakeEffect 
  /-- CREAD (R500) Link request message for a cellar read on another die. -/
  | cread (src : Fin 16) (tag : BitVec 10) (addr : BitVec 42) (two : Bool)
  /-- CWRITE (R500) Link request message for a cellar write on another die. -/
  | cwrite (src : Fin 16) (tag : BitVec 10) (addr : BitVec 42) (two : Bool) (data : BitVec 1024)
  /-- OREAD (R500) Link request message for an object read. -/
  | oread (src : Fin 16) (tag : BitVec 10) (ver : Bool) (slot : BitVec 16) (off : BitVec 26) (two : Bool)
  /-- OWRITE (R500) Link request message for an object write. -/
  | owrite (src : Fin 16) (tag : BitVec 10) (ver : Bool) (slot : BitVec 16) (off : BitVec 26) (two : Bool) (data : BitVec 1024)
  /-- RDATA (R500) Link response message that carries read data. -/
  | rdata (src : Fin 16) (tag : BitVec 10) (err : BitVec 2) (data : BitVec 1024)
  /-- WACK (R500) Link response message that acknowledges a write. -/
  | wack (src : Fin 16) (tag : BitVec 10) (err : BitVec 2)
  /-- MAIL (R500) Link control message that carries a mailbox message. -/
  | mail (src : Fin 16) (task : Nat) (rel : BitVec 12) (msg : MailBody)
  /-- ARRIVE (R238) Link control message that reports a die's barrier arrivals to the master. -/
  | arrive (src : Fin 16) (task : Nat) (epoch : Nat) (body : ArriveBody)
  /-- RELEASE (R239) Link control message that forwards a full-stop release. -/
  | release (src : Fin 16) (task : Nat) (body : ReleaseBody)
  /-- ABORT (R294) Link control message that carries a run abort without stagger. -/
  | abort (src : Fin 16) (body : AbortBody)
  /-- FENCE (R500) Link control message that writes a fence. -/
  | fence (src : Fin 16) (handle : Word) (val : BitVec 64)
  /-- DISPATCH_RESERVE (R318) DISPATCH message that asks a die to reserve idle clusters. -/
  | dispatchReserve (src : Fin 16) (part : Fin 8) (count : BitVec 12) (urgent : Bool)
  /-- DISPATCH_START (R318) DISPATCH message that starts a task on reserved clusters. -/
  | dispatchStart (src : Fin 16) (m : StartMsg)
  /-- DISPATCH_CANCEL (R318) DISPATCH message that cancels reservations. -/
  | dispatchCancel (body : CancelBody)
  /-- DISPATCH_IDLE (R318) DISPATCH message announcing an idle cluster, which triggers gathering again. -/
  | dispatchIdle (src : Fin 16) (part : Fin 8)
  /-- SPAN_FRAME_RECEIVE (R509) A span frame is received and accepted, or discarded with a NACK. -/
  | spanFrameReceive (port : Fin 2) (check : FrameCheck) (heads : List (BitVec 64)) (seq ack : BitVec 12)
  /-- SPAN_NACK (R509) A NACK makes the sender replay from the oldest unacknowledged frame. -/
  | spanNack (port : Fin 2) (seq : BitVec 12)
  /-- SPAN_REPLAY_TIMEOUT (R509) ACK has not advanced for 4 us plus the round trip, and the sender replays. -/
  | spanReplayTimeout (port : Fin 2)
  /-- SPAN_TRAIN_STEP (R511) A span training state completes its work and advances. -/
  | spanTrainStep (port : Fin 2) (peer : Fin 16) (npkg : BitVec 4) (family : Byte) (sig : BitVec 12) (keysOk : Bool) (lat : BitVec 16)
  /-- SPAN_STATE_TIMEOUT (R511) A training state exceeds its limit and the port returns to WAKE. -/
  | spanStateTimeout (port : Fin 2)
  /-- RETRAIN_LIMIT_EXPIRE (R512) A link not ACTIVE within RETRAIN_LIMIT aborts the waiting runs and reroutes. -/
  | retrainLimitExpire (link : Fin 3)
  /-- LINK_LOST (R512) A link not ACTIVE within LOST_MS becomes LOST. -/
  | linkLost (link : Fin 3)
  /-- SEAM_RETRAIN (R505) The seam leaves its active state and UCIe retrains. -/
  | seamRetrain 
  /-- BROADCAST_WRITE (R522) A management broadcast write is applied one cluster per SCLK, skipping unusable targets. -/
  | broadcastWrite (who : Fin 4097) (addr : BitVec 26) (val : Word)
  /-- GROUP_WRITE (R521) A management group write is applied to the clusters in GROUP_MASK. -/
  | groupWrite (who : Fin 4097) (addr : BitVec 26) (val : Word)
  /-- CTX_STALL_READ (R282) A read of a CTX_STALL low word latches its high word. -/
  | ctxStallRead (who : Fin 4097) (context : BitVec 12) (cause : Fin 32)
  /-- TILE_HEALTH_CLEAR (R531) Write of TILE_HEALTH.CLEAR that zeroes the tile's protection counts. -/
  | tileHealthClear (who : Fin 4097) (cl : Fin 32) (tile : Fin 17)
  /-- FULL_SEEN_CLEAR (R271) W1C write of COMMIT_STATUS.FULL_SEEN. -/
  | fullSeenClear (who : Fin 4097)
  /-- EXPIRED_CLEAR (R331) W1C write of MASTER_CFG.EXPIRED. -/
  | expiredClear (who : Fin 4097) (m : BitVec 12)
  /-- REJECT_CLEAR (R418) W1C write of RELOAD.REJECT. -/
  | rejectClear (who : Fin 4097)
  /-- LOST_CLEAR (R418) W1C write of SCRUB_STATUS.LOST. -/
  | lostClear (who : Fin 4097)
  /-- VBAT_LOST_CLEAR (R470) W1C write of SEC_STATUS.VBAT_LOST. -/
  | vbatLostClear (who : Fin 4097)
  /-- CTL_ERR_CLEAR (R528) W1C write of CTL_ERR.ERR. -/
  | ctlErrClear (who : Fin 4097) (f : Fin 5)
  /-- VBAT_KEY_LOSS (R448) VBAT_KEY leaves its range; every key store slot is cleared. -/
  | vbatKeyLoss 
  /-- REGISTER_WRITE (R529) A write to a register with no behaviour of its own sets its fields under its access rule. -/
  | registerWrite (who : Fin 4097) (addr : BitVec 26) (val : Word)
  /-- POWER_LOSS (R393) The die loses power: SERVING ends, and all volatile state is lost except what R267 repeats from the commit table at the next start-up. -/
  | powerLoss 
  /-- SEAM_ACTIVE (R505) UCIe training or retraining of the seam completes, the seam enters its active state, and held seam traffic resumes. -/
  | seamActive 
  /-- DISPATCH_ANSWER (R318) A die's answer to a DISPATCH reserve message, giving the number of clusters it reserved, reaches the dispatching die, which then sends the next reserve or the start or cancel messages. -/
  | dispatchAnswer (src : Fin 16) (count : BitVec 12)
  /-- RESERVED_OP_COMMAND (R344) A command beat with a reserved OP code is rejected with REJECTED_RANGE, its declared write-data beats are consumed, and BAD_FIELD counts it. -/
  | reservedOpCommand (port : Fin 4) (b : CmdBeat) (op : Byte)
  /-- CHALLENGE (R469) SPDM CHALLENGE request, answered with a signed response, or refused with a Busy error during an authentication lockout. -/
  | challenge 
  /-- SPDM_HEARTBEAT (R463) SPDM HEARTBEAT message inside a session, which restarts the session's 60 s idle timer. -/
  | spdmHeartbeat (sess : Fin 2)
  /-- PROBE_SELECT (R364) A write through the IEEE 1149.1 test access port to a probe multiplexer's 8-bit select register, which chooses the source that PRB[n] drives while PROBE_EN is 1. -/
  | probeSelect (pin : Fin 8) (sel : Byte)
deriving DecidableEq, Repr

end Sys2Proof
end

