-- ==== Sys2Proof/Decode.lean ====
section
/-! DEFINITION. The command that a word spells: spec/opcode_table.json gives no row any bits, so no word spells one. And the
command that a command beat of a front port spells by its OP (R335). -/
namespace Sys2Proof

/-- The command that the table's bits spell: none, for every word. -/
def decodeTableWord (_nbits _w : Nat) : Option Instr := none

/-! ### Command beats (R335, Tables 11-2 and 12-2) -/

/-- OP of a command beat. -/
def beatOp (x : BitVec 256) : Byte := x.extractLsb' 0 8

/-- The fields of a command beat; bits 30, 31, 34 to 63 and ARG2 are reserved. -/
def beatOf (x : BitVec 256) : CmdBeat :=
  { tag := x.extractLsb' 8 10, mid := x.extractLsb' 18 12, nwd := x.extractLsb' 32 2, arg0 := x.extractLsb' 64 64,
    arg1 := x.extractLsb' 128 64 }

/-- The command that a beat on a port spells, with the write-data beats that come with it: by its OP, and a reserved one where no
table names the code. -/
def commandOf (port : Fin 4) (x : BitVec 256) (wd : List WdBeat) : Instr :=
  let b := beatOf x
  match (beatOp x).toNat with
  | 0x01 => .ctxCreate port b
  | 0x02 => .ctxReset port b
  | 0x03 => .ctxTeardown port b
  | 0x04 => .heartbeat port b
  | 0x05 => .queueOpen port b
  | 0x06 => .queueClose port b
  | 0x08 => .objAlloc port b
  | 0x09 => .objFree port b
  | 0x0A => .refAdd port b
  | 0x0B => .refDrop port b
  | 0x0C => .pin port b
  | 0x0D => .unpin port b
  | 0x0E => .share port b
  | 0x0F => .descRead port b
  | 0x10 => .submit port b wd
  | 0x11 => .fenceSignal port b
  | 0x40 => .ctlRd port b
  | 0x41 => .ctlWr port b
  | _ => .reservedOpCommand port b (beatOp x)

end Sys2Proof
end

