-- ==== Sys2Proof/Config.lean ====
section
/-! DEFINITION. The free values: constants with no body, so nothing can be proved of their value (log 4, log 10). -/
namespace Sys2Proof.Config

/-- A value the manual leaves undefined, drawn with the state's counter `free` (R111, R130, R134, R176). -/
opaque freeWord : Nat → Word

/-- An undefined 512-bit entry, drawn in the same way. -/
opaque freeEntry : Nat → Entry

/-- An undefined 1024-bit line, drawn in the same way. -/
opaque freeLine : Nat → BitVec 1024

/-- An undefined fabric frame, drawn in the same way. -/
opaque freeFrame : Nat → BitVec 4096

/-- What a probe source of a select code drives at a time: the manual gives classes of sources only (R364). It is a function of
the select and the time alone, so it carries no data (R365). -/
opaque probeSource : Byte → Nat → Bool

/-- The cellar address that another die gives to an offset in a version of one of its objects (R249, R500). -/
opaque cellarOf : Nat → Nat → Bool → Nat → BitVec 48

/-- The secret number that the die draws for a signature (R465). -/
opaque freeScalar : Nat → Nat

end Sys2Proof.Config
end

