-- ==== Sys2Proof/Machine/Parts.lean ====
section
/-! DEFINITION. The parts that the state is made of, each a record of plain data named as the manual names it. -/
namespace Sys2Proof.Machine

/-- Byte-addressed storage: pairs with rising addresses, an unlisted byte reading 0 (log 3). -/
abbrev Memory := List Host.Cell

/-! ### The tile (05, 06, 07) -/

/-- One queue entry (R132). A load step reserves its entry before the data arrive: `ready` is false until then. `spoilt` marks
an entry whose place two slots contend for without an order: its data are undefined when they come (R134). -/
structure QEntry where
  data : Entry
  tok : BitVec 4
  ready : Bool
  id : Nat
  spoilt : Bool := false
deriving DecidableEq, Repr

/-- A comparator (R124, R183). `rel` is 0 below, 1 at most, 2 equal, 3 not equal. -/
structure Cmp where
  ctr : Nat
  limit : Word
  rel : Nat
  signed : Bool
deriving DecidableEq, Repr

/-- A clause as it was broadcast: its issue count (R98), its address in the paragraph, the tile mask it carries. -/
structure Clause where
  seq : Nat
  addr : Nat
  word : BitVec 256
  mask : BitVec 16
deriving DecidableEq, Repr

/-- A place that an access reaches: a byte address of `Memory`'s shelf and larder ranges, a cellar address of this die,
or an object of another die (`cell`: in that die's cellar, so that its granules are charged here, R275). -/
inductive Target where
  | here (addr : Nat)
  | cellar (addr : Nat)
  | remote (die slot : Nat) (ver : Bool) (off : Nat) (cell : Bool)
  | suppressed
deriving DecidableEq, Repr

/-- A queue entry reserved by an access: tile, queue end, entry identity, half of the line. -/
structure Dest where
  tile : Nat
  queue : Nat
  id : Nat
  half : Nat
deriving DecidableEq, Repr

/-- A slot's use of a queue that two slots may push or two may pop (Table 05-3): the queue, whether it pushed, slot and issue
count (R134). -/
structure QUse where
  queue : Nat
  push : Bool
  slot : Nat
  seq : Nat
deriving DecidableEq, Repr

/-- What one lane's check of a closed group compares (R92 to R95): whether it is exempt, the difference between the checksum
cell's group value and the sum of its 16 cells', num / den, and the greatest magnitude it may have, bound / bden. -/
structure LaneCheck where
  exempt : Bool
  num : Int
  den : Nat
  bound : Nat
  bden : Nat
deriving DecidableEq, Repr

/-- A memory access that is not yet complete in the sense of R163. `have_` counts the granules that a cellar or remote
read has received, or whose write is answered; `granted` tells an offered cellar step that has been granted, or a message sent;
`waits` counts granted granules that find their class queue full (Table 10-1). -/
structure Access where
  id : Nat
  slot : Nat
  seq : Nat
  xfer : Nat
  rd : Option Target
  wr : Option Target
  width : Nat
  data : BitVec 1024
  granted : Bool
  have_ : Nat
  dests : List Dest
  ctr : Option Nat
  waits : Nat := 0
deriving DecidableEq, Repr

/-- The verb that the vector slot now steps (R156): its field and what it captured at issue (R181), the elements and
entries it holds between steps. -/
structure VAct where
  fld : BitVec 56
  seq : Nat
  addr : Nat
  acts : Bool
  left : Nat
  popped : Nat
  konst1 : Word
  konst2 : Word
  base : Word
  elem : Nat
  acc : List Nat
  aux : List Nat
  grp : List Nat
  pairs : List Nat
  side : List Nat
  used : Nat
  out : List (Nat × QEntry)
  firsts : List Nat
  tokD : BitVec 4
  tokA : BitVec 4
  tokG : BitVec 4
  tok0 : BitVec 4
  zeros : Nat
  flagged : Bool
  /-- SRC0 entries of the whole issue -/
  count : Nat := 0
  /-- token of the SRC0 entry that supplied each code of `grp`, and each value of `side` where it has one -/
  grpTok : List (BitVec 4) := []
  sideTok : List (Option (BitVec 4)) := []
deriving DecidableEq, Repr

/-- A block of the matrix engine from its MMA to its drain (R116, R119). -/
structure Block where
  fld : BitVec 40
  mode : Word
  K : Nat
  seq : Nat
  addr : Nat
  acts : Bool
  k : Nat
  aLeft : List Nat
  bLeft : List Nat
  /-- operands of the k steps of the open group, oldest first: 16 A codes, 16 B codes -/
  ops : List (List Nat × List Nat)
  start : List Nat
  sco : List Nat
  sca : List Nat
  scb : List Nat
  /-- scale words or records of the open group -/
  gsa : List Nat
  gsb : List Nat
  /-- groups whose scale entries have been popped -/
  gsFor : Nat
  /-- running sums of the 256 cells -/
  sums : List Nat
  /-- groups added to the running sums -/
  closed : Nat
  escArrived : Bool
  escA : List (List Nat)
  escB : List (List Nat)
  tok : BitVec 4
  out : List QEntry
  filled : Bool
  flagged : Bool
deriving DecidableEq, Repr

/-- The verb that the load or store slot now steps (R155). -/
structure LSAct where
  verb : Nat
  seq : Nat
  addr : Nat
  acts : Bool
  agd : Nat
  agd2 : Nat
  dst : Nat
  tok : BitVec 4
  tmode : Nat
  left : Nat
  bases : List Word
  first : Bool
  xfer : Nat
deriving DecidableEq, Repr

/-- An EXT issue still owed results (R213). -/
structure ExtIssue where
  owed : Nat
  tmode : Nat
  tok : BitVec 4
  srcTok : BitVec 4
  first : Bool
  seq : Nat
deriving DecidableEq, Repr

/-- A sync field that has issued, for the ordering of R165. -/
structure SyncRec where
  seq : Nat
  drain : Nat
  hold : Nat
deriving DecidableEq, Repr

/-- The task-time state of one physical tile (Table 05-1, R136). -/
structure Tile where
  ct : Tbl Word
  ab : Tbl Word
  k : Tbl Word
  cp : Tbl Cmp
  queues : Tbl (List QEntry)
  clauseQ : List Clause
  issued : Tbl Nat
  pos : Tbl Nat
  vgen : Tbl Word
  mgen : Tbl Word
  vact : Option VAct
  lact : Option LSAct
  sact : Option LSAct
  blocks : List Block
  accs : List Access
  /-- counters that await a word or an allocator result: the verb's issue count, and the counter -/
  ctWait : List (Nat × Nat)
  /-- closed groups whose comparison is due: row checks of columns 0 to 15, then column checks of rows 0 to 15 -/
  verdicts : List (List LaneCheck)
  extOwed : List ExtIssue
  extCount : Nat
  nextId : Nat
  syncs : List SyncRec
  errCount : Nat
  errCause : Nat
  errSlot : Nat
  errValid : Bool
  errWarn : Nat
  errAt : Nat
  oow : Nat
  residue : Nat
  exempt : Nat
  /-- issue counts of LDB reads, standing in the lead tile, whose data this tile awaits (R208) -/
  shared : List Nat := []
  uses : List QUse := []
  /-- MCLK time of the k step that ended the matrix engine's last run of 256 idle ACLK cycles, of its last k step, and k steps
  issued in that MCLK cycle (R241, R242) -/
  softAt : Nat := 0
  kAt : Nat := 0
  kCount : Nat := 0
deriving DecidableEq, Repr

/-- What stays with the silicon of a physical tile: TILE_FMAX (R139) and TILE_HEALTH (R531). -/
structure TileHw where
  fmax : Word
  corr : Nat
  csum : Nat
  detect : Nat
deriving DecidableEq, Repr

/-! ### The cluster (08) -/

/-- A mailbox message (R226). `avail` turns true when it may be received (R228). -/
structure Msg where
  src : Nat
  w1 : Word
  w2 : Word
  w3 : Word
  avail : Bool
deriving DecidableEq, Repr

/-- An open loop: first clause of its body, passes left, clause that ends it (R223, R224). -/
structure Loop where
  body : Nat
  left : Nat
  last : Nat
deriving DecidableEq, Repr

/-- What a cluster is doing. -/
inductive Phase where
  | idle
  | wiping
  | staging
  | ready
  | loading
  | running
  | ended
  | stopped
  | copying
deriving DecidableEq, Repr

/-- Where the sequencer stands within its present clause (R223): before its barrier, arrived, past it, past RECV or
MASK, past its broadcast. -/
inductive SeqStep where
  | barrier
  | arrived
  | pre
  | body
  | post
deriving DecidableEq, Repr

/-- The spare of a cluster (R145). -/
structure Spare where
  target : Nat
  active : Bool
  fused : Bool
  release : Bool
  count : Nat
deriving DecidableEq, Repr

/-- A beat offered to the extension field on the IN channel (Table 12-8). -/
structure ExtBeat where
  data : Entry
  fn : Nat
  fmt : Nat
  tile : Nat
  seq : Nat
  last : Bool
deriving DecidableEq, Repr

/-- A tile's part in an allocator verb of its cluster (R257). -/
structure AllocReq where
  seq : Nat
  tile : Nat
  acts : Bool
  src : Word
  imm : Nat
  verb : Nat
  cdst : Nat
deriving DecidableEq, Repr

/-- One cluster: the context it runs, its sequencer, mailbox, extension port and spare. `last` is the context of its last
run (R319), `view` the one that sees its registers (R525), `stageOf` the task whose slice the selected stage buffer holds,
`stageFor` the task whose slice the other one is for, `staged` that it has arrived (R289 to R291). -/
structure Cluster where
  task : Option Nat
  rel : Nat
  phase : Phase
  last : Option Nat
  view : Option Nat
  startAt : Nat
  mask : BitVec 16
  sv : Tbl Word
  agd : Tbl (BitVec 384)
  para : List (BitVec 256)
  next : Nat
  step : SeqStep
  punct : Nat
  loops : List Loop
  bcount : Nat
  commas : Nat
  regEpoch : Nat
  stopEpoch : Nat
  paraEnded : Bool
  mbox : List Msg
  sent : Nat
  received : Nat
  seqErrs : Nat
  seqCause : Nat
  seqErrValid : Bool
  seqErrAt : Nat
  spare : Spare
  extEpoch : Nat
  extUsed : Bool
  extStale : Nat
  extUnowed : Nat
  extIn : List ExtBeat
  extRead : List Nat
  /-- MCLK time of the last end read of the run (R412) -/
  extAt : Option Nat := none
  stageSel : Nat
  stageOf : Option Nat
  stageFor : Option Nat
  staged : Bool
  /-- granules of the stage copy that the bucket has paid for (R275, R291) -/
  stagePaid : Nat := 0
  areq : List AllocReq
  /-- results on their way: tile, counter, word -/
  ares : List (Nat × Nat × Word)
  resv : Option Nat
  /-- the logical tile whose cellar step was granted last (R277) -/
  lastTile : Nat
  /-- the logical tile whose transfer was let begin last (R274) -/
  xferLast : Nat := 15
  /-- the logical tile whose entry the extension port took last (R354) -/
  extLast : Nat := 15
  /-- a SEND to another die: 0 none, 1 sent, 2 its mailbox entry is reserved (R228) -/
  posted : Nat := 0
  /-- MCLK time of its last release by a barrier or a task start (R242) -/
  softAt : Nat := 0
  /-- whether the ports have been asked for the paragraph, and how many clauses have been asked for: the paragraph store keeps
  the last 8,192 of them (R219) -/
  asked : Bool := false
  fetched : Nat := 0
deriving DecidableEq, Repr

/-! ### The shape (01) -/

/-- The fields of Table 01-2 as applied (per-region, per-cluster and per-partition ones by index). -/
structure Shape where
  regionEn : Nat
  clusterEn : Tbl Nat
  aclkDiv : Tbl Nat
  partCount : Nat
  partOf : Tbl Nat
  fillPolicy : Tbl Nat
  hostQueues : Tbl Nat
  winBase : Nat
  winSize : Nat
  shelfRoom : Tbl Nat
  larderRoom : Tbl Nat
  roomBase : Tbl Nat
  roomSize : Tbl Nat
  bwRead : Nat
  bwWrite : Nat
deriving DecidableEq, Repr

/-- One entry of the shape report (Table 01-4). ACTION 1 CLAMPED, 2 DEFAULTED, 3 TRUNCATED, 4 IGNORED. -/
structure RepEntry where
  field : Nat
  index : Nat
  action : Nat
  cause : Nat
  value : Nat
deriving DecidableEq, Repr

/-- SHAPE_STATUS and the report array (R35, R36). STATE 0 none, 1 applied, 2 pending. -/
structure ShapeReport where
  entries : List RepEntry
  overflow : Bool
  clamped : Nat
  defaulted : Nat
  truncated : Nat
  ignored : Bool
  state : Nat
deriving DecidableEq, Repr

/-! ### Contexts, queues, objects, tasks (09, 11) -/

/-- Context states (Table 11-1, numbered as CTX_STATE.STATE). -/
inductive CtxSt where
  | free
  | live
  | draining
  | lost
  | teardown
deriving DecidableEq, Repr

/-- A context of this die (R298, R331). Energy is held exactly, in pJ (R494). -/
structure Ctx where
  master : BitVec 12
  part : Nat
  st : CtxSt
  resetPend : Bool
  cause : Nat
  stall : Tbl Nat
  stream : Option (Nat × Nat × Nat)
  trap : List Word
  escSat : Nat
  allocFail : Nat
  energy : Nat
  poisonDue : Bool
deriving DecidableEq, Repr

/-- Host queue states (Table 11-8, numbered as QUEUE_STATE.STATE). -/
inductive QSt where
  | absent
  | idle
  | open_
  | blocked
  | draining
deriving DecidableEq, Repr

/-- A host queue: QUEUE_STATE, QSTREAM and its two buckets (R276, R279, R316, R331). -/
structure HostQ where
  st : QSt
  ctx : BitVec 12
  part : Nat
  block : Nat
  qdepth : Nat
  waitLimit : Nat
  blockedAt : Nat
  rateRd : Nat
  depthRd : Nat
  outstanding : Nat
  rateWr : Nat
  depthWr : Nat
  bucketRd : Nat
  bucketWr : Nat
  waiting : List Nat
  fails : Nat
  urgent : Bool
  asked : List Nat
  got : List (Nat × Nat)
deriving DecidableEq, Repr

/-- Object states (Table 11-4, numbered as the descriptor's STATE). -/
inductive ObjSt where
  | free
  | live
  | freed
  | reclaim
  | removed
  | retired
deriving DecidableEq, Repr

/-- The policy of a sealed object (R453, R457). -/
structure Seal where
  digests : List (BitVec 384)
  shareOk : Bool
  spanOk : Bool
deriving DecidableEq, Repr

/-- An object descriptor (Table 11-3) with the tenant pins of R307, the run that holds it uncommitted (R259), a free by a
run that waits for its commit, and its seal (R456). -/
structure Obj where
  part : Nat
  gen : Nat
  owner : BitVec 12
  ownerDie : Nat
  tier : Nat
  committed : Bool
  shared : Bool
  st : ObjSt
  vsel : Bool
  fence : Bool
  writer : Option Nat
  home : Nat
  size : Nat
  base0 : Nat
  base1 : Nat
  readers0 : Nat
  readers1 : Nat
  refs : Nat
  pins0 : Nat
  pins1 : Nat
  draft : Option Nat
  policy : Option Seal
  hidden : Bool
  /-- verdicts of step 6 of Table 11-7 that are held, by version -/
  checked : Tbl Bool
deriving DecidableEq, Repr

/-- A candidate NaN event (R98, Table 03-4). -/
structure NanRec where
  rel : Nat
  cl : Nat
  seq : Nat
  slot : Nat
  tile : Nat
  elem : Nat
  clause : Nat
  verb : Nat
  kind : Nat
deriving DecidableEq, Repr

/-- Why a run ends other than by its own end, in the order of R430 and of the table of R423. -/
inductive EndCause where
  | lost
  | capacity
  | fault (cls : Nat) (addr : Nat) (cl : Nat) (tile : Nat)
  | coolant
  | budget
  | nan
  | followOn
deriving DecidableEq, Repr

/-- Where an accepted task stands. -/
inductive Life where
  | pending
  | running
  | aborting
  | held
  | copying
  | committing
deriving DecidableEq, Repr

/-- An object named by a task: list index, descriptor slot, role, resolved version (R262, R313). -/
structure Named where
  idx : Nat
  die : Nat
  slot : Nat
  output : Bool
  ver : Bool
  /-- clusters in which a BIND of it has taken effect; none for the descriptor's own list -/
  bound : Option (List Nat)
  /-- size in bytes and tier of another die's object, as this die knows them (R172, R275) -/
  size : Nat := 0
  tier : Nat := 0
deriving DecidableEq, Repr

/-- One access of a run, kept for the ordering rules (R130, R165, R167). -/
structure AccLog where
  cl : Nat
  tile : Nat
  slot : Nat
  seq : Nat
  lo : Nat
  len : Nat
  write : Bool
  commas : Nat
  regEp : Nat
  stopEp : Nat
  /-- queue entries that a read fills -/
  dests : List Dest := []
deriving DecidableEq, Repr

/-- An accepted task (R314 to R321, R423). `die` is its dispatching die; `key` of the table is its sequence on that die. -/
structure Task where
  seq : Word
  die : Nat
  port : Nat
  tag : BitVec 10
  mid : BitVec 12
  queue : Nat
  ctx : BitVec 12
  part : Nat
  desc : BitVec 512
  objs : List (Word × Bool)
  refs : List Nat
  named : List Named
  paraSlot : Nat
  paraVer : Bool
  life : Life
  clusters : List Nat
  /-- clusters that the present run has started on -/
  started : List Nat
  total : Nat
  /-- the dies that hold its clusters and how many, in task-relative order (R89, R318) -/
  layout : List (Nat × Nat)
  /-- full stops released by the barrier master (R238) -/
  stops : Nat
  outst : Nat
  used : Bool
  rerun : Bool
  firstAddr : Nat
  cause : Option EndCause
  nans : List NanRec
  illegal : Nat
  seqErr : Nat
  warn : Bool
  allocs : List Nat
  frees : List Nat
  reports : List (Nat × Nat × Bool)
  after : Option Nat
  resolved : Bool
  log : List AccLog
  accepted : Nat
  /-- ranges that earlier runs wrote (R270), and dies whose part of the aborted run has drained (R295) -/
  wrote : List (Nat × Nat) := []
  drains : List Nat := []
deriving DecidableEq, Repr

/-- A commit record (Table 09-6). `st` is 1 committed, 2 retired; a free record is not listed. `task` and `outs` are the engine's
own note of whose it is and of what its writer fields name. -/
structure CommitRec where
  task : Nat
  seq : Word
  ctx : BitVec 12
  part : Nat
  st : Nat
  outs : List Nat
  fence : Word
  value : BitVec 64
  crc : Word
deriving DecidableEq, Repr

/-! ### Ports (12) -/

/-- A status and result to be answered, with the continuation beat of a DESC_READ (R338). -/
structure Ans where
  status : Nat
  result : BitVec 64
  cont : Option (BitVec 192)
deriving DecidableEq, Repr

/-- A command of a front port that awaits its answer (R337, R338). `owed` counts the write-data beats it still awaits. -/
structure PCmd where
  op : Nat
  tag : BitVec 10
  mid : BitVec 12
  arg0 : BitVec 64
  owed : Nat
  wd : List (BitVec 256)
  at_ : Nat
  ans : Option Ans
  task : Option Nat
deriving DecidableEq, Repr

/-- A beat offered on the response channel (Table 12-4). KIND 0 answer, 1 completion, 2 continuation. -/
structure RespBeat where
  op : Nat
  tag : BitVec 10
  mid : BitVec 12
  kind : Nat
  status : Nat
  result : BitVec 64
  record : BitVec 128
deriving DecidableEq, Repr

/-- One interrupt line (R343): a change waiting for its pulse, pulses given, time of the last pulse. -/
structure Irq where
  want : Bool
  pulses : Nat
  lastAt : Option Nat
deriving DecidableEq, Repr

/-- A front port (R333 to R345, R357). -/
structure Front where
  midBase : Nat
  midMask : Nat
  en : Bool
  hung : Bool
  midRej : Nat
  badField : Nat
  wdErr : Nat
  proto : Nat
  irqLost : Nat
  cmds : List PCmd
  offered : List RespBeat
  offeredAt : Option Nat
  posted : List (Nat × RespBeat)
  /-- pulses that come before a completion: its task, and the port and line of the pulse (R343) -/
  pulseFirst : List (Nat × Nat × Nat) := []
  irq : Tbl Irq
deriving DecidableEq, Repr

/-- Who asked for a granule: an access of a tile (with its half), another die's request, the sequencer of a cluster (R219), a
cluster's stage copy (R291), or the engine itself with a commit write. -/
inductive GSrc where
  | access (tile id half : Nat)
  | other (die tag half : Nat)
  | para (cl : Nat)
  | stage (cl : Nat)
  | commit
deriving DecidableEq, Repr

/-- A granule request (R249). `wr` carries the data of a write, `be` its byte enables (R346). -/
structure Gran where
  addr : Nat
  wr : Option Entry
  src : GSrc
  cls : Nat
  be : BitVec 64 := BitVec.allOnes 64
deriving DecidableEq, Repr

/-- An outstanding tag of a cellar port (R347). -/
structure TagRec where
  tag : Nat
  gran : Gran
  at_ : Nat
deriving DecidableEq, Repr

/-- A cellar port (R250 to R252, R347 to R351): its three class queues of 64 granules, and the granules granted that wait
for room in theirs. -/
structure CellarPort where
  rdQ : List Gran
  wrQ : List Gran
  rmQ : List Gran
  waitQ : List Gran := []
  cred0 : Int
  cred1 : Int
  cred2 : Int
  tags : List TagRec
  quar : List Nat
  corr : Nat
  uncorr : Nat
  badTag : Nat
  timeouts : Nat
  down : Bool
deriving DecidableEq, Repr

/-! ### Links (18) -/

/-- A message of Table 18-2 that this die sends. Bodies of CTL messages have no stated layout: they are structured. -/
inductive LMsg where
  | oread (tag : Nat) (ver : Bool) (slot off : Nat) (two : Bool)
  | owrite (tag : Nat) (ver : Bool) (slot off : Nat) (two : Bool) (data : BitVec 1024)
  | rdata (tag : Nat) (err : Nat) (data : BitVec 1024)
  | wack (tag : Nat) (err : Nat)
  | mail (task : Nat) (rel : Nat) (m : Msg) (reserved : Bool)
  | arrive (task epoch : Nat) (ended : Bool) (binds : List Bound)
  | release (task epoch : Nat) (binds : List Bound)
  | abort (task : Nat) (drained : Bool)
  | fence (handle : Word) (val : BitVec 64)
  | reserve (part count : Nat) (urgent : Bool)
  | answer (count : Nat)
  | start (m : StartMsg)
  | cancel (task : Option Nat)
  | idle (part : Nat)
deriving DecidableEq, Repr

/-- A message of another die that waits for an entry of its mailbox: sending die, task, destination (R228). -/
structure Letter where
  die : Nat
  task : Nat
  rel : Nat
  m : Msg
deriving DecidableEq, Repr

/-- A request of this die to another, waiting for its response (R502). -/
structure LReq where
  die : Nat
  tag : Nat
  tile : Nat
  acc : Nat
deriving DecidableEq, Repr

/-- A request served for another die through the cellar ports. -/
structure Served where
  die : Nat
  tag : Nat
  write : Bool
  need : Nat
  got : Nat
  err : Nat
  data : BitVec 1024
deriving DecidableEq, Repr

/-- A span port (Tables 18-5 and 18-7). States 0 DOWN to 7 LOST. -/
structure Span where
  st : Nat
  ring : Bool
  peer : Nat
  cause : Nat
  lat : Nat
  replay : Nat
  crcErr : Nat
  retrain : Nat
  auth : Nat
  format : Nat
  aborts : Nat
  sendSeq : Nat
  ackSeq : Nat
  expSeq : Nat
  nacked : Bool
  tries : Nat
  replays : List Nat
  enterAt : Nat
  rerouted : Bool
  /-- MCLK time at which the present training state was entered (R511) -/
  stateAt : Nat := 0
deriving DecidableEq, Repr

/-- The seam (Table 18-8). STATE 0 not trained, 1 active, 2 retraining, 3 lost. -/
structure Seam where
  st : Nat
  retrain : Nat
  aborts : Nat
  format : Nat
  enterAt : Nat
  rerouted : Bool
deriving DecidableEq, Repr

/-! ### Configuration (13, 14) -/

/-- The attic (Tables 13-5 and 13-6). -/
structure Attic where
  valid : Bool
  len : Nat
  crc : Word
  writes : Nat
  keySrc : Nat
  keySlot : Nat
  hdr : BitVec 2048
  segs : List Seg
  shadow : Tbl (BitVec 4096)
  shadowCrc : Tbl Word
  emap : Tbl (BitVec 128)
  /-- image writes that wait for a partial reload or a parcel opening, oldest first (R369, R455) -/
  waiting : List (BitVec 2048 × List Seg)
deriving DecidableEq, Repr

/-- Start-up (Table 14-2): the state, the lines, the segment in hand. `frames` and `maps` hold the checked plaintext that
FRAME_WRITE will write. -/
structure Startup where
  st : Nat
  pos : Nat
  head : Bool
  inpkg : Bool
  noLock : Bool
  doneLate : Bool
  loadMs : Nat
  poweredAt : Nat
  waitAt : Nat
  stageAt : Nat
  stage : Nat
  done : Bool
  errorN : Bool
  rx : Option Seg
  /-- MCLK time of the last byte that arrived (R381) -/
  rxAt : Nat := 0
  rxBroken : Bool
  chainOut : List (Byte × List Seg)
  restartOut : Bool
  frames : Tbl (BitVec 4096)
  maps : Tbl (BitVec 128)
  shapeRecs : List (BitVec 64)
  skipped : Nat
deriving DecidableEq, Repr

/-- CFG_ERR and CFG_INFO (Tables 13-12 and 13-13). -/
structure Cfg where
  first : Nat
  early : Bool
  partial_ : Bool
  shapeOnly : Bool
  seen : BitVec 15
  written : Nat
  skipped : Nat
  kind : Bool
  npkg : Nat
deriving DecidableEq, Repr

/-- RELOAD (Table 14-10). STATE 0 idle to 6 interrupted. `target` is the region of the reload that runs or ran last; `held`
marks regions held in reset and empty. -/
structure Reload where
  region : Nat
  target : Nat
  reject : Bool
  st : Nat
  removed : Nat
  held : Tbl Bool
  /-- MCLK time at which the release of step 4 began (R403) -/
  releaseAt : Nat := 0
deriving DecidableEq, Repr

/-- The scrubbers (R408 to R418). -/
structure Scrub where
  noness : Nat
  ess : Nat
  privCorr : Nat
  vote : Nat
  lost : Bool
  pass : Nat
  lastAddr : Nat
  kind : Nat
  copy0 : Word
  copy1 : Word
  copy2 : Word
  outvoted : List Nat
  refreshAt : Nat
  mapPos : Nat
  privPos : Nat
  /-- frames with non-essential differences that await their second read, and the words that differed (R410) -/
  again : Tbl (BitVec 128)
  running : Bool
  mapAt : Nat
  privAt : Nat
deriving DecidableEq, Repr

/-! ### Faults, security, power -/

/-- A FAULT_LOG entry (Table 15-4). -/
structure LogEntry where
  seq : Word
  ctx : BitVec 12
  cl : Nat
  tile : Nat
  cls : Nat
  action : Nat
  attempt : Bool
  cell : Nat
  where_ : Nat
deriving DecidableEq, Repr

/-- FAULT_STATUS, FAULT_LOG, COOLANT_STATUS, CAPACITY (R442). -/
structure Faults where
  corrected : Nat
  retried : Nat
  uncorr : Nat
  capRem : Nat
  subst : Nat
  stream : Nat
  next : Nat
  log : Tbl LogEntry
  coolOk : Bool
  stopped : Bool
  thermal : Bool
  stops : Nat
  resub : Nat
  cool : Nat
  /-- REGION and SCOPE as the register reads -/
  capReg : Nat
  capRegScope : Bool
  /-- the unit of the operation in progress -/
  capRegion : Nat
  capScope : Bool
  capSt : Nat
  capRestore : Bool
  lost : Nat
  out : BitVec 8
deriving DecidableEq, Repr

/-- An open session (R463). Roles: bit 0 SERVICE, 1 ADMIN, 2 KEYS, 3 PARCEL, 4 IMAGE. -/
structure Session where
  roles : BitVec 5
  at_ : Nat
  finished : Bool
  probe : Bool
deriving DecidableEq, Repr

/-- What the management endpoint answered last. -/
inductive MgmtAns where
  | none
  | ok
  | value (w : Word)
  | spdmError
  | busy
  | handles (hs : List Word)
  | report (body : BitVec 2048) (sig : BitVec 768)
  | code (n : Nat)
deriving DecidableEq, Repr

/-- A parcel opening that was asked for: owner, source handle and slices (R454). -/
structure OpenAsk where
  owner : BitVec 12
  src : Word
  slices : List Slice
deriving DecidableEq, Repr

/-- A parcel open in progress (R454): `hdr` is the parcel's 192-byte header, `key` the content key, which only the security shell
holds and which goes with the opening (R447, Table 16-1). -/
structure Opening where
  owner : BitVec 12
  src : Nat
  slots : List Nat
  slices : List Slice
  hdr : BitVec 1536
  key : BitVec 256
deriving DecidableEq, Repr

/-- Keys, sessions, fallback, parcels (16). -/
structure Sec where
  fuseKey : Option (BitVec 256)
  anchors : List (BitVec 384)
  slots : Tbl (BitVec 256)
  vbatLost : Bool
  idOk : Bool
  identity : BitVec 384
  sessions : Tbl Session
  fallback : Bool
  cause : Nat
  fails : Nat
  lockouts : Nat
  lockedUntil : Option Nat
  answerAt : Nat
  lastAns : MgmtAns
  parcelCode : Nat
  parcelNSlice : Nat
  parcelId : Word
  opened : Nat
  opening : Option Opening
  /-- an opening that waits for a partial reload (R455) -/
  openWaits : Option OpenAsk
  probeEn : Bool
  selects : Tbl Byte
deriving DecidableEq, Repr

/-- A power domain (R477, R481). State 0 OFF, 1 RISING, 2 ON, 3 FALLING; `want` is the last request of a running sequence;
`held` marks a domain that DOMAIN_CTL keeps ON. -/
structure Domain where
  st : Nat
  want : Option Bool
  at_ : Nat
  held : Bool
deriving DecidableEq, Repr

/-- Per-region monitors (R483 to R487, Table 17-6). `thrPair` is 0 or the cause of a throttle of R486, `thrOwn` the throttle
of R487; `calm` and `cool` count the evaluations that will end them. -/
structure RegionMon where
  temp : Nat
  supply : Nat
  droop : Bool
  nbr : Bool
  thrPair : Nat
  thrOwn : Bool
  trips : Nat
  calm : Nat
  cool : Nat
deriving DecidableEq, Repr

/-- Clocks, domains, governor (17). -/
structure Power where
  rootLock : Bool
  aclkStop : Bool
  mon : Tbl RegionMon
  /-- consecutive evaluations in which a neighbour pair exceeded its temperature limit and its supply limit (R486) -/
  pairs : Tbl (Nat × Nat)
  domains : Tbl Domain
  ctlDomain : Nat
  /-- the most recent request of DOMAIN_CTL: its domain, whether it asked for ON, and RESULT -/
  ctlFor : Nat
  ctlOn : Bool
  ctlResult : Nat
  power : Nat
  capStep : Nat
  calm : Nat
  trips : Nat
  evalAt : Nat
  govAt : Nat
  windowAt : Nat
  /-- since when every region has stayed at or below 95 °C (R487) -/
  coolSince : Option Nat
deriving DecidableEq, Repr

/-- Words of the hard-block frames that Table 19-5 lists (R363). -/
structure HardWords where
  serdes : Tbl Word
  link : Word
  powerCfg : Word
  fallback : Word
deriving DecidableEq, Repr

/-- CTL_ERR of one reader (Table 19-4a). -/
structure CtlErr where
  addr : Nat
  cause : Nat
  err : Bool
deriving DecidableEq, Repr

end Sys2Proof.Machine
end

