-- ==== Sys2Proof/Machine/State.lean ====
section
/-! DEFINITION. The state of one die: everything the manual gives it, as plain data, and its value after reset. -/
namespace Sys2Proof.Machine

/-- Why the machine stops. -/
inductive Fault where
  /-- A command that the manual gives no effect. Raised by no meaning: every command of the table has an effect in every state
  (log 51). Safe: nothing can be proved of it. -/
  | illFormed
deriving DecidableEq, Repr

/-- Why a command has no meaning. -/
inductive Refusal where
  /-- No meaning has been written yet. Raised by no meaning. Safe: nothing can be proved of it. -/
  | notModelled (mnemonic : String)
deriving DecidableEq, Repr

/-- One die of a ZX engine. -/
structure State where
  /-- shelf, larder and cellar bytes -/
  mem : Memory
  /-- MCLK cycles counted (R474) -/
  now : Nat
  /-- free values drawn so far: the model's own counter, no state of the manual's -/
  free : Nat
  build : Word
  grade : Word
  tiles : Tbl Tile
  hw : Tbl TileHw
  clusters : Tbl Cluster
  shape : Shape
  pendShape : Option Shape
  report : ShapeReport
  ctxs : Tbl Ctx
  queues : Tbl HostQ
  objs : Tbl Obj
  tasks : Tbl Task
  taskSeq : Word
  hbLimit : Tbl Nat
  hbAt : Tbl Nat
  expired : Tbl Bool
  latch : Tbl Word
  scanCycles : Nat
  scanQueue : Nat
  scanSeq : Word
  scanAt : Nat
  commits : List CommitRec
  fullSeen : Bool
  redo : Nat
  badCrc : Nat
  rrQueue : Nat
  front : Tbl Front
  wdLimit : Nat
  cellarLimit : Nat
  respLimit : Nat
  cellar : Tbl CellarPort
  cellarLost : Bool
  lastGrant : Nat
  attic : Attic
  fabric : Tbl (BitVec 4096)
  /-- the flip-flops of the cells of a frame, by dense index (R359) -/
  flops : Tbl (BitVec 64)
  start : Startup
  cfg : Cfg
  reload : Reload
  scrub : Scrub
  hard : HardWords
  faults : Faults
  sec : Sec
  power : Power
  span : Tbl Span
  seam : Seam
  linkOut : List (Nat × LMsg)
  linkReqs : List LReq
  served : List Served
  mails : List Letter
  /-- start messages of other dies that wait here, with their die (R263, R267, R295) -/
  starts : List (Nat × StartMsg)
  peers : Tbl Nat
  lostDies : List Nat
  urgentFor : List (Nat × Nat)
  ctlErr : Tbl CtlErr
  skipLast : Nat
  skipTotal : Nat
  groups : Tbl Word
  pending : List Instr
deriving DecidableEq, Repr

/-- A tile at a task start, but for its generators (R136, R168, R173, R178, R532). -/
def Tile.fresh : Tile where
  ct := []
  ab := []
  k := []
  cp := []
  queues := []
  clauseQ := []
  issued := []
  pos := []
  vgen := []
  mgen := []
  vact := none
  lact := none
  sact := none
  blocks := []
  accs := []
  ctWait := []
  verdicts := []
  extOwed := []
  extCount := 0
  nextId := 1
  syncs := []
  errCount := 0
  errCause := 0
  errSlot := 0
  errValid := false
  errWarn := 0
  errAt := 0
  oow := 0
  residue := 0
  exempt := 0
  shared := []
  uses := []
  softAt := 0
  kAt := 0
  kCount := 0

/-- A physical tile's silicon as the reset model has it: class 2.0 GHz, nothing counted (log 5). -/
def TileHw.fresh : TileHw where
  fmax := 0
  corr := 0
  csum := 0
  detect := 0

/-- A cluster at reset: idle, no task yet, spare free (R145, R244, R353). -/
def Cluster.fresh : Cluster where
  task := none
  rel := 0
  phase := .idle
  last := none
  view := none
  startAt := 0
  mask := 0xFFFF
  sv := []
  agd := []
  para := []
  next := 0
  step := .barrier
  punct := 0
  loops := []
  bcount := 0
  commas := 0
  regEpoch := 0
  stopEpoch := 0
  paraEnded := false
  mbox := []
  sent := 0
  received := 0
  seqErrs := 0
  seqCause := 0
  seqErrValid := false
  seqErrAt := 0
  spare := { target := 0x1F, active := false, fused := false, release := false, count := 0 }
  extEpoch := 0
  extUsed := false
  extStale := 0
  extUnowed := 0
  extIn := []
  extRead := []
  extAt := none
  stageSel := 0
  stageOf := none
  stageFor := none
  staged := false
  stagePaid := 0
  areq := []
  ares := []
  resv := none
  lastTile := 15
  posted := 0
  xferLast := 15
  extLast := 15
  softAt := 0
  asked := false
  fetched := 0

/-- A context ID that is not in use, its registers at their reset values (R298, R331). -/
def Ctx.fresh : Ctx where
  master := 0
  part := 0
  st := .free
  resetPend := false
  cause := 0
  stall := []
  stream := none
  trap := [0, 0, 0, 0]
  escSat := 0
  allocFail := 0
  energy := 0
  poisonDue := false

/-- A host queue at reset (R278, R279, R331): IDLE, buckets full. Queues above the die's total are ABSENT by the shape. -/
def HostQ.fresh : HostQ where
  st := .idle
  ctx := 0
  part := 0
  block := 0
  qdepth := 0x40
  waitLimit := 0x3E8
  blockedAt := 0
  rateRd := 0
  depthRd := 0x10
  outstanding := 0x40
  rateWr := 0
  depthWr := 0x10
  bucketRd := 0x4000
  bucketWr := 0x4000
  waiting := []
  fails := 0
  urgent := false
  asked := []
  got := []

/-- A descriptor slot that holds no object. -/
def Obj.fresh : Obj where
  part := 0
  gen := 0
  owner := 0
  ownerDie := 0
  tier := 0
  committed := false
  shared := false
  st := .free
  vsel := false
  fence := false
  writer := none
  home := 0
  size := 0
  base0 := 0
  base1 := 0
  readers0 := 0
  readers1 := 0
  refs := 0
  pins0 := 0
  pins1 := 0
  draft := none
  policy := none
  hidden := false
  checked := []

/-- Front port `f` at reset: its window holds the masters 0x400 × f to 0x400 × f + 0x3FF (R334, R357). -/
def Front.fresh (f : Nat) : Front where
  midBase := 0x400 * f
  midMask := 0xC00
  en := true
  hung := false
  midRej := 0
  badField := 0
  wdErr := 0
  proto := 0
  irqLost := 0
  cmds := []
  offered := []
  offeredAt := none
  posted := []
  pulseFirst := []
  irq := []

/-- An interrupt line at reset: low. -/
def Irq.fresh : Irq where
  want := false
  pulses := 0
  lastAt := none

/-- A cellar port at reset (R252, R357). -/
def CellarPort.fresh : CellarPort where
  rdQ := []
  wrQ := []
  rmQ := []
  waitQ := []
  cred0 := 0
  cred1 := 0
  cred2 := 0
  tags := []
  quar := []
  corr := 0
  uncorr := 0
  badTag := 0
  timeouts := 0
  down := false

/-- A span port at reset: DOWN (Table 18-5). -/
def Span.fresh : Span where
  st := 0
  ring := false
  peer := 0
  cause := 0
  lat := 0
  replay := 0
  crcErr := 0
  retrain := 0
  auth := 0
  format := 0
  aborts := 0
  sendSeq := 0
  ackSeq := 0
  expSeq := 0
  nacked := false
  tries := 0
  replays := []
  enterAt := 0
  rerouted := false

/-- A region's monitor at reset (Table 17-6). -/
def RegionMon.fresh : RegionMon where
  temp := 0
  supply := 0
  droop := false
  nbr := false
  thrPair := 0
  thrOwn := false
  trips := 0
  calm := 0
  cool := 0

/-- A power domain at reset: OFF (Table 17-9). -/
def Domain.fresh : Domain where
  st := 0
  want := none
  at_ := 0
  held := false

/-- An empty FAULT_LOG entry (Table 15-4). -/
def LogEntry.fresh : LogEntry where
  seq := 0
  ctx := 0
  cl := 0
  tile := 0
  cls := 0
  action := 0
  attempt := false
  cell := 0xFF
  where_ := 0

/-- The shape of a die that has checked none: no region enabled, the defaults of Table 01-2 elsewhere. -/
def Shape.fresh : Shape where
  regionEn := 0
  clusterEn := []
  aclkDiv := []
  partCount := 1
  partOf := []
  fillPolicy := []
  hostQueues := []
  winBase := 0
  winSize := 0
  shelfRoom := []
  larderRoom := []
  roomBase := []
  roomSize := []
  bwRead := 60
  bwWrite := 30

/-- The die right after reset: in POWER (R393), nothing loaded, every register at the value its table gives; where the
manual gives none, the value of logs 3 to 9. -/
def State.reset : State where
  mem := []
  now := 0
  free := 0
  build := 0x5A010D78
  grade := 0x00780000
  tiles := []
  hw := []
  clusters := []
  shape := Shape.fresh
  pendShape := none
  report := { entries := [], overflow := false, clamped := 0, defaulted := 0, truncated := 0, ignored := false, state := 0 }
  ctxs := []
  queues := []
  objs := []
  tasks := []
  taskSeq := 0
  hbLimit := []
  hbAt := []
  expired := []
  latch := []
  scanCycles := 0
  scanQueue := 0
  scanSeq := 0
  scanAt := 0
  commits := []
  fullSeen := false
  redo := 0
  badCrc := 0
  rrQueue := 0
  front := []
  wdLimit := 0x0A
  cellarLimit := 0x10
  respLimit := 0x00A
  cellar := []
  cellarLost := false
  lastGrant := 31
  attic := { valid := false, len := 0, crc := 0, writes := 0, keySrc := 0, keySlot := 0, hdr := 0, segs := [],
             shadow := [], shadowCrc := [], emap := [], waiting := [] }
  fabric := []
  flops := []
  start := { st := 0, pos := 0, head := true, inpkg := false, noLock := false, doneLate := false, loadMs := 0,
             poweredAt := 0, waitAt := 0, stageAt := 0, stage := 0, done := false, errorN := false, rx := none,
             rxBroken := false, chainOut := [], restartOut := false, frames := [], maps := [], shapeRecs := [], skipped := 0 }
  cfg := { first := 0, early := false, partial_ := false, shapeOnly := false, seen := 0, written := 0, skipped := 0,
           kind := false, npkg := 1 }
  reload := { region := 0, target := 0, reject := false, st := 0, removed := 0, held := [] }
  scrub := { noness := 0, ess := 0, privCorr := 0, vote := 0, lost := false, pass := 0, lastAddr := 0, kind := 0,
             copy0 := 0x01010208, copy1 := 0x01010208, copy2 := 0x01010208, outvoted := [], refreshAt := 0, mapPos := 0,
             privPos := 0, again := [], running := false, mapAt := 0, privAt := 0 }
  hard := { serdes := [], link := 0x00080A0A, powerCfg := 0x00000178, fallback := 0x0000AA08 }
  faults := { corrected := 0, retried := 0, uncorr := 0, capRem := 0, subst := 0, stream := 0, next := 0, log := [],
              coolOk := false, stopped := false, thermal := false, stops := 0, resub := 0, cool := 0, capReg := 0, capRegScope := false, capRegion := 0,
              capScope := false, capSt := 0, capRestore := false, lost := 0, out := 0 }
  sec := { fuseKey := none, anchors := [], slots := [], vbatLost := false, idOk := false, identity := 0, sessions := [],
           fallback := true, cause := 1, fails := 0, lockouts := 0, lockedUntil := none, answerAt := 0, lastAns := .none,
           parcelCode := 0, parcelNSlice := 0, parcelId := 0, opened := 0, opening := none, openWaits := none, probeEn := false, selects := [] }
  power := { rootLock := false, aclkStop := false, mon := [], pairs := [], domains := [], ctlDomain := 0, ctlFor := 0, ctlOn := false,
             ctlResult := 0, power := 0, capStep := 0, calm := 0, trips := 0, evalAt := 0, govAt := 0, windowAt := 0,
             coolSince := none }
  span := []
  seam := { st := 0, retrain := 0, aborts := 0, format := 0, enterAt := 0, rerouted := false }
  linkOut := []
  linkReqs := []
  served := []
  mails := []
  starts := []
  peers := []
  lostDies := []
  urgentFor := []
  ctlErr := []
  skipLast := 0
  skipTotal := 0
  groups := []
  pending := []

end Sys2Proof.Machine
end

