-- ==== Sys2Proof/Machine/Tbl.lean ====
section
/-! DEFINITION. Reading and writing sparse tables, and fields of words. -/
namespace Sys2Proof.Machine

/-- What a table lists for a key. -/
def Tbl.find {α : Type} (k : Nat) : Tbl α → Option α
  | [] => none
  | (a, x) :: r => if a = k then some x else Tbl.find k r

/-- What a table holds for a key: its entry, or the default. -/
def Tbl.get {α : Type} (d : α) (t : Tbl α) (k : Nat) : α := (Tbl.find k t).getD d

/-- Write one key, keeping the keys rising. -/
def Tbl.set {α : Type} (k : Nat) (v : α) : Tbl α → Tbl α
  | [] => [(k, v)]
  | (a, x) :: r =>
    if k < a then (k, v) :: (a, x) :: r
    else if k = a then (k, v) :: r
    else (a, x) :: Tbl.set k v r

/-- Remove one key. -/
def Tbl.del {α : Type} (k : Nat) (t : Tbl α) : Tbl α := t.filter (fun p => p.1 ≠ k)

/-- Change every listed entry. -/
def Tbl.mapVals {α : Type} (f : Nat → α → α) (t : Tbl α) : Tbl α := t.map (fun p => (p.1, f p.1 p.2))

/-- Bits `lo` to `lo + w − 1` of a number. -/
def bitsN (x lo w : Nat) : Nat := x / 2 ^ lo % 2 ^ w

/-- Bit `i` of a number. -/
def bitN (x i : Nat) : Bool := x / 2 ^ i % 2 = 1

/-- A count that stops at a limit. -/
def satTo (limit x : Nat) : Nat := if limit < x then limit else x

/-- A number between two limits, the nearest one when it is outside. -/
def clampTo (lo hi x : Nat) : Nat := if x < lo then lo else if hi < x then hi else x

/-- 1 for true. -/
def b2n (b : Bool) : Nat := if b then 1 else 0

/-- A list's first element that passes, with its place. -/
def findPos {α : Type} (p : α → Bool) : List α → Nat → Option (Nat × α)
  | [], _ => none
  | x :: r, n => if p x then some (n, x) else findPos p r (n + 1)

/-- Replace the elements that pass. -/
def replaceIf {α : Type} (p : α → Bool) (f : α → α) (l : List α) : List α := l.map (fun x => if p x then f x else x)

/-- The least number of a list. -/
def minOf : List Nat → Option Nat
  | [] => none
  | x :: r => match minOf r with
    | none => some x
    | some y => some (if x ≤ y then x else y)

/-- Cut a list into pieces of `n`, with fuel. -/
def chunks {α : Type} (n : Nat) : Nat → List α → List (List α)
  | 0, _ => []
  | _ + 1, [] => []
  | f + 1, l => l.take n :: chunks n f (l.drop n)

/-- CRC over bytes, least significant bit first, for a reflected polynomial. -/
def crcBits (poly : Nat) : Nat → Nat → Nat
  | 0, c => c
  | n + 1, c => crcBits poly n (if c % 2 = 1 then Nat.xor (c / 2) poly else c / 2)

/-- CRC-32C of a byte string (Castagnoli polynomial, PRESUMED from its name; log 11). -/
def crc32c (bytes : List Byte) : Word :=
  BitVec.ofNat 32 (Nat.xor (bytes.foldl (fun c b => crcBits 0x82F63B78 8 (Nat.xor c b.toNat)) 0xFFFFFFFF) 0xFFFFFFFF)

/-- The bytes of a number, least significant first (R43). -/
def leBytes : Nat → Nat → List Byte
  | 0, _ => []
  | n + 1, x => BitVec.ofNat 8 x :: leBytes n (x / 256)

/-- The number that bytes spell, least significant first (R43). -/
def leNat : List Byte → Nat
  | [] => 0
  | b :: r => b.toNat + 256 * leNat r

end Sys2Proof.Machine
end

