-- ==== Sys2Proof/Machine/Num.lean ====
section
/-! DEFINITION. Number formats, rounding and conversions (02), the special functions (R121) and the stochastic generator
(R87 to R90). Values are exact: a numerator over a denominator. -/
namespace Sys2Proof.Machine

/-- An exact value (R49): the one NaN, an infinity, or m / d with d > 0. Zero has no sign. -/
inductive NumVal where
  | nan
  | inf (neg : Bool)
  | fin (m : Int) (d : Nat)
deriving DecidableEq, Repr

/-- Format codes of Table 06-3 by name. -/
def fmtH16 : Nat := 0
/-- F8's code. -/
def fmtF8 : Nat := 1
/-- INT8's code. -/
def fmtI8 : Nat := 2
/-- INT4's code. -/
def fmtI4 : Nat := 3
/-- B4's code. -/
def fmtB4 : Nat := 4
/-- F32's code. -/
def fmtF32 : Nat := 5
/-- INT32's code. -/
def fmtI32 : Nat := 6

/-- Width of a format in bits (Table 02-1). Code 7 is reserved; it is given F32's width. -/
def fmtWidth (f : Nat) : Nat :=
  match f with
  | 0 => 16
  | 1 => 8
  | 2 => 8
  | 3 => 4
  | 4 => 4
  | _ => 32

/-- Whether a format is floating (H16, F8, F32). -/
def fmtFloat (f : Nat) : Bool := f = 0 || f = 1 || f = 5

/-- Whether a format is an integer format. -/
def fmtInt (f : Nat) : Bool := f = 2 || f = 3 || f = 6

/-- Two's complement value of the low w bits. -/
def sextN (w x : Nat) : Int :=
  let y := x % 2 ^ w
  if y < 2 ^ (w - 1) then (y : Int) else (y : Int) - (2 ^ w : Nat)

/-- The w-bit two's complement code of an integer. -/
def wrapN (w : Nat) (x : Int) : Nat := (x % ((2 ^ w : Nat) : Int)).toNat

/-- m × 2^e, exactly. -/
def dyadic (m : Int) (e : Int) : NumVal :=
  if e < 0 then .fin m (2 ^ (-e).toNat) else .fin (m * ((2 ^ e.toNat : Nat) : Int)) 1

/-- A code of a floating layout with fw fraction bits, 8 exponent bits and bias 127 (R45, R49). -/
def decodeIeee (fw code : Nat) : NumVal :=
  let frac := code % 2 ^ fw
  let ex := code / 2 ^ fw % 256
  let neg := code / 2 ^ (fw + 8) % 2 = 1
  if ex = 255 then (if frac = 0 then .inf neg else .nan)
  else if ex = 0 then .fin 0 1
  else
    let m : Int := ((2 ^ fw + frac : Nat) : Int)
    dyadic (if neg then -m else m) ((ex : Int) - 127 - (fw : Int))

/-- An F8 code (R46, R49). -/
def decodeF8 (code : Nat) : NumVal :=
  let c := code % 256
  let ex := c / 8 % 16
  if c = 0x80 then .nan
  else if ex = 0 then .fin 0 1
  else
    let m : Int := ((8 + c % 8 : Nat) : Int)
    dyadic (if c < 128 then m else -m) ((ex : Int) - 10)

/-- The B4 levels in units of 2^-10, by code (Table 04-2). -/
def b4Levels : List Int := [-1880, -1312, -992, -744, -536, -348, -172, 0, 172, 348, 536, 744, 992, 1312, 1880]

/-- The level of a B4 code 0x0 to 0xE. -/
def b4Level (c : Nat) : NumVal := .fin (b4Levels.getD c 0) 1024

/-- The value of a code under its format (R48, R49); a B4 code without its record is its bare level. -/
def decode (f code : Nat) : NumVal :=
  match f with
  | 0 => decodeIeee 7 code
  | 1 => decodeF8 code
  | 2 => .fin (sextN 8 code) 1
  | 3 => .fin (sextN 4 code) 1
  | 4 => b4Level (code % 16)
  | 5 => decodeIeee 23 code
  | 6 => .fin (sextN 32 code) 1
  | _ => .nan

/-! ### Exact arithmetic -/

/-- Exact negation. -/
def NumVal.neg : NumVal → NumVal
  | .nan => .nan
  | .inf n => .inf (!n)
  | .fin m d => .fin (-m) d

/-- Magnitude. -/
def NumVal.abs : NumVal → NumVal
  | .nan => .nan
  | .inf _ => .inf false
  | .fin m d => .fin (m.natAbs : Int) d

/-- Exact sum, with IEEE 754's infinities and NaNs (R64, R78). -/
def NumVal.add : NumVal → NumVal → NumVal
  | .nan, _ => .nan
  | _, .nan => .nan
  | .inf a, .inf b => if a = b then .inf a else .nan
  | .inf a, .fin _ _ => .inf a
  | .fin _ _, .inf b => .inf b
  | .fin a d, .fin b e =>
    if d = e then .fin (a + b) d
    else if e % d = 0 then .fin (a * ((e / d : Nat) : Int) + b) e
    else if d % e = 0 then .fin (a + b * ((d / e : Nat) : Int)) d
    else .fin (a * (e : Int) + b * (d : Int)) (d * e)

/-- Exact product (R60, R78): an infinity times zero is NaN. -/
def NumVal.mul : NumVal → NumVal → NumVal
  | .nan, _ => .nan
  | _, .nan => .nan
  | .inf a, .inf b => .inf (a != b)
  | .inf a, .fin m _ => if m = 0 then .nan else .inf (a != decide (m < 0))
  | .fin m _, .inf b => if m = 0 then .nan else .inf (decide (m < 0) != b)
  | .fin a d, .fin b e => .fin (a * b) (d * e)

/-- Exact quotient, with Table 05-2's row for a zero divisor and IEEE 754 elsewhere (R189). -/
def NumVal.div : NumVal → NumVal → NumVal
  | .nan, _ => .nan
  | _, .nan => .nan
  | .inf _, .inf _ => .nan
  | .inf a, .fin m _ => .inf (a != decide (m < 0))
  | .fin _ _, .inf _ => .fin 0 1
  | .fin a d, .fin b e =>
    if b = 0 then (if a = 0 then .nan else .inf (decide (a < 0)))
    else .fin (if b < 0 then -(a * (e : Int)) else a * (e : Int)) (d * b.natAbs)

/-- Strictly less; false for NaN. -/
def NumVal.lt : NumVal → NumVal → Bool
  | .nan, _ => false
  | _, .nan => false
  | .inf a, .inf b => a && !b
  | .inf a, .fin _ _ => a
  | .fin _ _, .inf b => !b
  | .fin a d, .fin b e => a * (e : Int) < b * (d : Int)

/-- Equal by value; false for NaN. -/
def NumVal.same : NumVal → NumVal → Bool
  | .nan, _ => false
  | _, .nan => false
  | .inf a, .inf b => a = b
  | .inf _, .fin _ _ => false
  | .fin _ _, .inf _ => false
  | .fin a d, .fin b e => a * (e : Int) = b * (d : Int)

/-- Whether a value is NaN. -/
def NumVal.isNan : NumVal → Bool
  | .nan => true
  | _ => false

/-- Whether a value is NaN or infinite. -/
def NumVal.special : NumVal → Bool
  | .fin _ _ => false
  | _ => true

/-- Whether a value is zero. -/
def NumVal.isZero : NumVal → Bool
  | .fin m _ => m = 0
  | _ => false

/-! ### Rounding (R50 to R54) -/

/-- The rounding mode: to nearest even, or stochastic with n bits and their draw r (R51, R52). -/
inductive Rnd where
  | rne
  | sr (n r : Nat)
deriving DecidableEq, Repr

/-- a / b rounded to a whole number in a mode (R51, R52). -/
def roundQ (mode : Rnd) (a b : Nat) : Nat :=
  let q := a / b
  let t := a % b
  match mode with
  | .rne => if b < 2 * t ∨ (2 * t = b ∧ q % 2 = 1) then q + 1 else q
  | .sr n r => if 2 ^ n ≤ t * 2 ^ n / b + r then q + 1 else q

/-- floor(log2(a / b)) for positive a, b. -/
def floorLog2 (a b : Nat) : Int :=
  let e : Int := (a.log2 : Int) - (b.log2 : Int)
  if e < 0 then (if b ≤ a * 2 ^ (-e).toNat then e else e - 1)
  else (if b * 2 ^ e.toNat ≤ a then e else e - 1)

/-- A magnitude rounded to p significant bits with unbounded exponent: significand and exponent of its first bit. -/
def roundSig (p : Nat) (mode : Rnd) (a b : Nat) : Nat × Int :=
  let e := floorLog2 a b
  let s : Int := e - ((p : Int) - 1)
  let q := if s < 0 then roundQ mode (a * 2 ^ (-s).toNat) b else roundQ mode a (b * 2 ^ s.toNat)
  if q = 2 ^ p then (2 ^ (p - 1), e + 1) else (q, e)

/-- A rounded magnitude as a code of a floating format, with the overflow and flush of R50 steps 3 and 4 (Table 02-6). -/
def packFloat (f : Nat) (neg : Bool) (sig : Nat) (e : Int) : Nat :=
  match f with
  | 1 =>
    let s := if neg then 0x80 else 0
    if 8 < e then s + 0x7F
    else if e < -6 then 0
    else s + ((e + 7).toNat * 8 + (sig - 8))
  | _ =>
    let fw := if f = 0 then 7 else 23
    let s := if neg then 2 ^ (fw + 8) else 0
    if 127 < e then s + 255 * 2 ^ fw
    else if e < -126 then 0
    else s + ((e + 127).toNat * 2 ^ fw + (sig - 2 ^ fw))

/-- An integer saturated to w bits (Table 02-6), as its code. -/
def packInt (w : Nat) (x : Int) : Nat :=
  if ((2 ^ (w - 1) : Nat) : Int) ≤ x then 2 ^ (w - 1) - 1
  else if x < -((2 ^ (w - 1) : Nat) : Int) then 2 ^ (w - 1)
  else wrapN w x

/-- A NaN event of a conversion (R59): none, NaN written, NaN into a format without NaN, infinity into F8. -/
inductive NanEv where
  | none
  | written
  | lost
  | infF8
deriving DecidableEq, Repr

/-- The bits of the canonical NaN of a format (R58), or the zero code where it has none (Table 02-7). -/
def nanCode (f : Nat) : Nat :=
  match f with
  | 0 => 0x7FC0
  | 1 => 0x80
  | 4 => 0x7
  | 5 => 0x7FC00000
  | _ => 0

/-- The zero code of a format (Table 02-7). -/
def zeroCode (f : Nat) : Nat := if f = 4 then 7 else 0

/-- A magnitude rounded to F32 under R51, as an exact value again. -/
def toF32 (x : NumVal) : NumVal :=
  match x with
  | .fin m d =>
    if m = 0 then .fin 0 1
    else
      let (s, e) := roundSig 24 .rne m.natAbs d
      decodeIeee 23 (packFloat 5 (decide (m < 0)) s e)
  | y => y

/-- The code of the level at or below v, scanning codes upward: the greatest c with level c ≤ v. -/
def b4Below (v : NumVal) : Nat → Nat
  | 0 => 0
  | c + 1 => if NumVal.lt v (b4Level (c + 1)) then b4Below v c else c + 1

/-- Rounding to B4 (R54); values beyond the grid go to its ends (Table 02-6). -/
def toB4 (mode : Rnd) (v : NumVal) : Nat :=
  match v with
  | .nan => 7
  | .inf n => if n then 0 else 0xE
  | .fin m _ =>
    if m = 0 then 7
    else if NumVal.lt v (b4Level 0) then 0
    else
      let c := b4Below v 14
      if c = 14 then 14
      else
        let lo := b4Level c
        let hi := b4Level (c + 1)
        match mode with
        | .rne =>
          let a := NumVal.add v (NumVal.neg lo)
          let b := NumVal.add hi (NumVal.neg v)
          if NumVal.lt a b then c
          else if NumVal.lt b a then c + 1
          else if c % 2 = 0 then c else c + 1
        | .sr n r =>
          let q := toF32 (NumVal.div (toF32 (NumVal.add v (NumVal.neg lo))) (toF32 (NumVal.add hi (NumVal.neg lo))))
          match q with
          | .fin qm qd => if 2 ^ n ≤ qm.natAbs * 2 ^ n / qd + r then c + 1 else c
          | _ => c

/-- One conversion of an exact value to a format (R50, R55 to R57, R535): the code and its NaN event. -/
def convert (f : Nat) (mode : Rnd) (x : NumVal) : Nat × NanEv :=
  match f with
  | 4 => (toB4 mode x, if NumVal.isNan x then .lost else .none)
  | 0 | 1 | 5 =>
    match x with
    | .nan => (nanCode f, .written)
    | .inf n =>
      if f = 1 then (0x80, .infF8)
      else if f = 0 then ((if n then 0xFF80 else 0x7F80), .none)
      else ((if n then 0xFF800000 else 0x7F800000), .none)
    | .fin m d =>
      if m = 0 then (0, .none)
      else
        let p := if f = 0 then 8 else if f = 1 then 4 else 24
        let (s, e) := roundSig p mode m.natAbs d
        (packFloat f (decide (m < 0)) s e, .none)
  | _ =>
    let w := fmtWidth f
    match x with
    | .nan => (0, .lost)
    | .inf n => ((if n then 2 ^ (w - 1) else 2 ^ (w - 1) - 1), .none)
    | .fin m d =>
      let q : Int := (roundQ mode m.natAbs d : Int)
      (packInt w (if m < 0 then -q else q), .none)

/-- The F32 code of an exact value, to nearest even. -/
def f32Code (x : NumVal) : Nat := (convert 5 .rne x).1

/-- One F32 addition of two codes (R76). -/
def f32Add (a b : Nat) : Nat := f32Code (NumVal.add (decode 5 a) (decode 5 b))

/-- A value widened for the vector unit (R121): floating results keep their value; an INT32 input rounds to F32. -/
def widenF32 (f code : Nat) : NumVal :=
  if f = 6 then toF32 (decode 6 code) else decode f code

/-! ### Special functions (R121, Table 05-2) -/

/-- Integer square root by bits, from bit n down. -/
def isqrtGo (x : Nat) : Nat → Nat → Nat
  | 0, r => r
  | n + 1, r => if (r + 2 ^ n) * (r + 2 ^ n) ≤ x then isqrtGo x n (r + 2 ^ n) else isqrtGo x n r

/-- floor of the square root. -/
def isqrt (x : Nat) : Nat := isqrtGo x (x.log2 / 2 + 1) 0

/-- sqrt(a / b) in units of 2^-160, with a half unit added when it is not exact, so that one rounding of it is the
rounding of the root: every rounding boundary of F32 lies on the grid of 2^-160. -/
def sqrtNum (a b : Nat) : NumVal :=
  let r := isqrt (a * 2 ^ 320 / b)
  if r * r * b = a * 2 ^ 320 then .fin r (2 ^ 160) else .fin (2 * r + 1) (2 ^ 161)

/-- ln 2 in units of 2^-512. -/
def ln2Fix : Nat := 0xb17217f7d1cf79abc9e3b39803f2f6af40f343267298b62d8a0d175b8baafa2be7b876206debac98559552fb4afa1b10ed2eae35c138214427573b291169b825

/-- Sum of r^k / k! for k from the present one on, in units of 2^-512. -/
def expTerms (r : Nat) : Nat → Nat → Nat → Nat
  | 0, _, _ => 0
  | n + 1, k, t =>
    let u := t * r / 2 ^ 512 / k
    u + expTerms r n (k + 1) u

/-- e^y for y = t × 2^-512 ≥ 0, as n and m with e^y = 2^n (1 + m × 2^-512) but for the last places (log 12). -/
def expFix (t : Nat) : Nat × Nat :=
  let n := t / ln2Fix
  (n, expTerms (t - n * ln2Fix) 110 1 (2 ^ 512))

/-- Odd powers z^(2j+1) / (2j+1) summed, in units of 2^-512. -/
def atanhTerms (zz : Nat) : Nat → Nat → Nat → Nat
  | 0, _, _ => 0
  | n + 1, k, t => t / k + atanhTerms zz n (k + 2) (t * zz / 2 ^ 512)

/-- 2^x for x = m / d (Table 05-2): exact for whole x. -/
def exp2Num (m : Int) (d : Nat) : NumVal :=
  let n := m / (d : Int)
  let f := (m % (d : Int)).toNat
  if 129 ≤ n then .inf false
  else if n < -130 then .fin 0 1
  else if f = 0 then dyadic 1 n
  else
    let e := expTerms (f * ln2Fix / d) 110 1 (2 ^ 512)
    NumVal.mul (.fin ((2 * (2 ^ 512 + e) + 1 : Nat) : Int) (2 ^ 513)) (dyadic 1 n)

/-- log2(m / d) for m > 0 (Table 05-2): exact for powers of two. -/
def log2Num (m d : Nat) : NumVal :=
  let e := floorLog2 m d
  let a := if e < 0 then m * 2 ^ (-e).toNat else m
  let b := if e < 0 then d else d * 2 ^ e.toNat
  if a = b then .fin e 1
  else
    let z := (a - b) * 2 ^ 512 / (a + b)
    let l := 2 * atanhTerms (z * z / 2 ^ 512) 170 1 z
    .fin (e * (ln2Fix : Int) + (l : Int)) ln2Fix

/-- tanh(a / b) for a > 0. -/
def tanhNum (a b : Nat) : NumVal :=
  if 16 * b ≤ a then .fin 1 1
  else
    let (n, e) := expFix (2 * a * 2 ^ 512 / b)
    let num : Nat := 2 ^ n * (2 ^ 512 + e) - 2 ^ 512
    .fin (num : Int) (2 ^ n * (2 ^ 512 + e) + 2 ^ 512)

/-- 1 / (1 + e^-x) for x = m / d. -/
def sigmoidNum (m : Int) (d : Nat) : NumVal :=
  let a := m.natAbs
  if m = 0 then .fin 1 2
  else if 128 * d ≤ a then (if m < 0 then .fin 0 1 else .fin 1 1)
  else
    let (n, e) := expFix (a * 2 ^ 512 / d)
    let x := 2 ^ n * (2 ^ 512 + e)
    if m < 0 then .fin (2 ^ 512) (2 ^ 512 + x) else .fin x (2 ^ 512 + x)

/-- The special function that XOP selects (R190), before its rounding to F32. -/
def sfuNum (op : Nat) (x : NumVal) : NumVal :=
  match op, x with
  | _, .nan => .nan
  | 0, y => (match y with
    | .fin m d => if m = 0 then .inf false else NumVal.div (.fin 1 1) (.fin m d)
    | _ => .fin 0 1)
  | 1, .fin m d => if m = 0 then .inf false else if m < 0 then .nan else sqrtNum d m.natAbs
  | 1, .inf n => if n then .nan else .fin 0 1
  | 2, .fin m d => if m = 0 then .fin 0 1 else if m < 0 then .nan else sqrtNum m.natAbs d
  | 2, .inf n => if n then .nan else .inf false
  | 3, .fin m d => exp2Num m d
  | 3, .inf n => if n then .fin 0 1 else .inf false
  | 4, .fin m d => if m = 0 then .inf true else if m < 0 then .nan else log2Num m.natAbs d
  | 4, .inf n => if n then .nan else .inf false
  | 5, .fin m d =>
    if m = 0 then .fin 0 1 else if m < 0 then NumVal.neg (tanhNum m.natAbs d) else tanhNum m.natAbs d
  | 5, .inf n => if n then .fin (-1) 1 else .fin 1 1
  | 6, .fin m d => sigmoidNum m d
  | 6, .inf n => if n then .fin 0 1 else .fin 1 1
  | _, _ => .nan

/-! ### Scales (R101, R102) -/

/-- Tmax of a target format (Table 04-1). -/
def tmax (f : Nat) : NumVal :=
  match f with
  | 1 => .fin 480 1
  | 2 => .fin 127 1
  | 3 => .fin 7 1
  | _ => .fin 1880 1024

/-- The pair (d, q) of an amax word (R101, R102), as F32 codes. -/
def scalePair (amax clip : Nat) (pow2 : Bool) (f : Nat) : Nat × Nat :=
  match decode 5 amax with
  | .nan => (0x7FC00000, 0x7FC00000)
  | .inf _ => (0x7F800000, 0)
  | .fin m d =>
    if m = 0 then (0x3F800000, 0x3F800000)
    else
      match NumVal.div (NumVal.mul (.fin m.natAbs d) (.fin 1 (2 ^ clip))) (tmax f) with
      | .fin a b =>
        let x := a.natAbs
        let dd : NumVal :=
          if pow2 then
            let e := floorLog2 x b
            let exact := if e < 0 then x * 2 ^ (-e).toNat = b else x = b * 2 ^ e.toNat
            dyadic 1 (if exact then e else e + 1)
          else
            let (s, e) := roundSig 24 .rne x b
            NumVal.mul (.fin s 1) (dyadic 1 (e - 23))
        let lo := dyadic 1 (-126)
        let hi := dyadic 1 126
        let c := if NumVal.lt dd lo then lo else if NumVal.lt hi dd then hi else dd
        (f32Code c, f32Code (NumVal.div (.fin 1 1) c))
      | _ => (0x7FC00000, 0x7FC00000)

/-! ### Generators (R87, R90) -/

/-- One step of a generator: its state after, and the bit shifted out. -/
def genStep (s : Nat) : Nat × Nat :=
  (if s % 2 = 1 then Nat.xor (s / 2) 0x80200003 else s / 2, s % 2)

/-- A draw of n bits: the state after and the value (R87). -/
def drawGo : Nat → Nat → Nat → Nat → Nat × Nat
  | 0, _, s, r => (s, r)
  | n + 1, m, s, r =>
    let (s', b) := genStep s
    drawGo n (m + 1) s' (r + b * 2 ^ m)

/-- A draw of n bits (R87). -/
def draw (s n : Nat) : Nat × Nat := drawGo n 0 s 0

/-- The start state of a generator (R90). -/
def laneSeed (seed lane : Nat) : Nat :=
  let m := 2 ^ 64
  let z := Nat.xor seed (lane * 0x9E3779B97F4A7C15 % m)
  let z := Nat.xor z (z / 2 ^ 30) * 0xBF58476D1CE4E5B9 % m
  let z := Nat.xor z (z / 2 ^ 27) * 0x94D049BB133111EB % m
  let z := Nat.xor z (z / 2 ^ 31)
  let s := Nat.xor z (z / 2 ^ 32) % 2 ^ 32
  if s = 0 then 0x5A5AC3E1 else s

/-- The lane identifier (Table 03-3): unit 0 vector, 1 matrix output converter. -/
def laneId (rel unit tile lane : Nat) : Nat := rel % 4096 * 4096 + unit * 256 + tile * 16 + lane

/-- Number of stochastic bits of an SRN field (06). -/
def srnBits (srn : Nat) : Nat := if srn = 0 then 8 else if srn = 1 then 12 else 16

/-! ### Running maximum (R61 to R63) -/

/-- The F32 word of the largest magnitude of a group (R62). -/
def amaxWord (xs : List NumVal) : Nat :=
  f32Code (xs.foldl (fun a x => if NumVal.isNan x then a else if NumVal.lt a (NumVal.abs x) then NumVal.abs x else a) (.fin 0 1))

/-! ### Entries (R43) -/

/-- The codes of an entry under a format, element 0 first. -/
def entryElems (f : Nat) (e : Entry) : List Nat :=
  let w := fmtWidth f
  (List.range (512 / w)).map (fun i => bitsN e.toNat (w * i) w)

/-- An entry packed from codes (R43, R188): what is missing at the end is the zero code. -/
def packElems (f : Nat) (xs : List Nat) : Entry :=
  let w := fmtWidth f
  let n := 512 / w
  let ys := xs ++ List.replicate (n - xs.length) (zeroCode f)
  BitVec.ofNat 512 ((ys.take n).foldr (fun c acc => c % 2 ^ w + 2 ^ w * acc) 0)

/-- An entry of 32-bit words packed with zero words at the end. -/
def packWords (xs : List Nat) : Entry := packElems 6 xs

end Sys2Proof.Machine
end

