-- ==== Sys2Proof/Machine/Ops.lean ====
section
/-! DEFINITION. The named operations over memory and over the tables of the state, and what the build and the shape say. -/
namespace Sys2Proof.Machine

/-- What a meaning answers. -/
abbrev Out := Host.Outcome State Fault Refusal

/-! ### Memory: shelf, larder and cellar bytes (R43, R126, R246, R249) -/

/-- The byte at an address; an unlisted byte is 0 (log 3). -/
def memGet : Memory → Nat → Byte
  | [], _ => 0
  | (x, b) :: r, a => if x = a then b else memGet r a

/-- Write one byte, keeping addresses rising and no zero listed. -/
def memSet (a : Nat) (b : Byte) : Memory → Memory
  | [] => if b = 0 then [] else [(a, b)]
  | (x, c) :: r =>
    if a < x then (if b = 0 then (x, c) :: r else (a, b) :: (x, c) :: r)
    else if a = x then (if b = 0 then r else (a, b) :: r)
    else (x, c) :: memSet a b r

/-- Write bytes from an address upward. -/
def memPut (a : Nat) : List Byte → Memory → Memory
  | [], m => m
  | b :: r, m => memPut (a + 1) r (memSet a b m)

/-- n bytes from an address, as a list. -/
def memBytes (m : Memory) (a : Nat) : Nat → List Byte
  | 0 => []
  | n + 1 => memGet m a :: memBytes m (a + 1) n

/-- The number that n bytes spell, little-endian (R43). -/
def memNat (m : Memory) (a n : Nat) : Nat := leNat (memBytes m a n)

/-- Zero every byte with lo ≤ address < hi. -/
def memClear (lo hi : Nat) (m : Memory) : Memory := m.filter (fun c => c.1 < lo || hi ≤ c.1)

/-- Whether every address of a memory lies above a bound. -/
def memAbove (a : Nat) : Memory → Bool
  | [] => true
  | (x, _) :: _ => decide (a < x)

/-- The canonical form: addresses rise and no byte listed is 0. -/
def memWf : Memory → Bool
  | [] => true
  | (x, b) :: r => b != 0 && memAbove x r && memWf r

/-- Write n bytes of a number, little-endian. -/
def State.putNat (s : State) (a n x : Nat) : State := { s with mem := memPut a (leBytes n x) s.mem }

/-- Write a list of bytes. -/
def State.putBytes (s : State) (a : Nat) (bs : List Byte) : State := { s with mem := memPut a bs s.mem }

/-- Zero a range. -/
def State.clear (s : State) (lo n : Nat) : State := { s with mem := memClear lo (lo + n) s.mem }

/-- First address of the larder of a cluster in the flat map. -/
def larderAt (cl off : Nat) : Nat := 2 ^ 40 + cl * 2 ^ 24 + off

/-- An address of the shelf of a physical tile in the flat map. -/
def shelfAt (key off : Nat) : Nat := key * 2 ^ 20 + off

/-- A cellar address in the flat map. -/
def cellarAt (a : Nat) : Nat := 2 ^ 50 + a

/-! ### The build (R20, R22, R530) -/

/-- Regions built. -/
def State.regions (s : State) : Nat := bitsN s.build.toNat 0 4

/-- Working tiles per cluster. -/
def State.tpc (s : State) : Nat := if bitN s.build.toNat 4 then 16 else 8

/-- Bytes of a shelf. -/
def State.shelfSize (s : State) : Nat := if bitN s.build.toNat 5 then 2 ^ 19 else 2 ^ 18

/-- Bytes of a larder. -/
def State.larderSize (s : State) : Nat := if bitN s.build.toNat 6 then 2 ^ 22 else 2 ^ 21

/-- Frames of a cluster's extension field (Table 13-2). -/
def State.extFrames (s : State) : Nat :=
  match bitsN s.build.toNat 7 2 with
  | 0 => 0
  | 1 => 64
  | _ => 128

/-- The essential-bit map of a frame: all ones where none is listed (R378). -/
def State.mapOf (s : State) (d : Nat) : BitVec 128 := Tbl.get (BitVec.allOnes 128) s.attic.emap d

/-- Whether the build has an extension field. -/
def State.hasExt (s : State) : Bool := bitsN s.build.toNat 7 2 != 0

/-- Span ports built. -/
def State.spans (s : State) : Nat := bitsN s.build.toNat 9 2

/-- Whether the build has a seam. -/
def State.hasSeam (s : State) : Bool := bitN s.build.toNat 11

/-- This die, as package × 2 + die (R390: its chain position). -/
def State.die (s : State) : Nat := s.start.pos

/-- Whether a region is fused off (R530). -/
def State.fusedOff (s : State) (r : Nat) : Bool := bitN s.grade.toNat (8 + r)

/-- Whether a region is present: built and not fused off. -/
def State.present (s : State) (r : Nat) : Bool := decide (r < s.regions) && !s.fusedOff r

/-! ### The shape (R13, R24, R253) -/

/-- Whether a shape makes a cluster active (R13, R33). -/
def State.activeIn (s : State) (sh : Shape) (c : Nat) : Bool :=
  s.present (c / 4) && bitN sh.regionEn (c / 4) && bitN (Tbl.get 15 sh.clusterEn (c / 4)) (c % 4)

/-- Whether a cluster is active (R13). -/
def State.active (s : State) (c : Nat) : Bool := s.activeIn s.shape c

/-- Root cycles of a region's ACLK (R471). -/
def State.divider (s : State) (r : Nat) : Nat := Tbl.get 2 s.shape.aclkDiv r

/-- Whole ACLK cycles of a region in n MCLK cycles: one MCLK cycle is 32 root cycles (R471). -/
def State.aclkIn (s : State) (r n : Nat) : Nat := 32 * n / s.divider r

/-- Partition of an active cluster. -/
def Shape.part (sh : Shape) (c : Nat) : Nat := Tbl.get 0 sh.partOf c

/-- Whether a partition is present on the die under a shape (R29). -/
def State.partIn (s : State) (sh : Shape) (p : Nat) : Bool :=
  (List.range 32).any (fun c => s.activeIn sh c && sh.part c = p)

/-- Whether a partition is present on the die. -/
def State.partPresent (s : State) (p : Nat) : Bool := s.partIn s.shape p

/-- Identifiers of the power domains of a cluster (Table 17-2). -/
def State.clusterDomains (s : State) (c : Nat) : List Nat :=
  (160 + c) :: (128 + c) :: (List.range (s.tpc / 4)).map (fun q => 4 * c + q)

/-- State of a power domain: 0 OFF, 1 RISING, 2 ON, 3 FALLING; the always-on domain is ON (R477, R479). -/
def State.domainSt (s : State) (d : Nat) : Nat := if d = 200 then 2 else (Tbl.get Domain.fresh s.power.domains d).st

/-- Whether every domain of a cluster is ON (R480). -/
def State.powered (s : State) (c : Nat) : Bool := (s.clusterDomains c).all (fun d => s.domainSt d = 2)

/-- Whether a cluster may be given work: active, its domains ON (R480), not out of service (R436), its region not held in
reset (R403). -/
def State.usable (s : State) (c : Nat) : Bool :=
  s.active c && s.powered c && !bitN s.faults.out.toNat (c / 4) && !Tbl.get false s.reload.held (c / 4)

/-- Whether a cluster leaves the service by a withdrawal in progress (R437). -/
def State.leaving (s : State) (c : Nat) : Bool :=
  (s.faults.capSt = 1 || s.faults.capSt = 2) && !s.faults.capRestore && (s.faults.capScope || c / 4 = s.faults.capRegion)

/-- Whether no further run may start on a cluster: it leaves the service, or its region drains for a reload (R403, R437). -/
def State.closing (s : State) (c : Nat) : Bool := s.leaving c || (s.reload.st = 1 && s.reload.target = c / 4)

/-- The usable clusters of a partition, ascending. -/
def State.clustersOf (s : State) (p : Nat) : List Nat :=
  (List.range 32).filter (fun c => s.usable c && s.shape.part c = p)

/-- Bytes of working space at the bottom of each shelf of a partition (R253). -/
def State.shelfWork (s : State) (p : Nat) : Nat :=
  s.shelfSize - Tbl.get (s.shelfSize / 65536) s.shape.shelfRoom p * 32768

/-- Bytes of working space at the bottom of each larder of a partition (R253). -/
def State.larderWork (s : State) (p : Nat) : Nat :=
  s.larderSize - Tbl.get (s.larderSize / 524288) s.shape.larderRoom p * 262144

/-- First cellar window offset and size of a partition's cellar store room (R253). -/
def State.cellarRoom (s : State) (p : Nat) : Nat × Nat :=
  (Tbl.get 0 s.shape.roomBase p * 2 ^ 20, Tbl.get 0 s.shape.roomSize p * 2 ^ 20)

/-- Cellar address of a window offset (R249). -/
def State.winAddr (s : State) (off : Nat) : Nat := s.shape.winBase * 2 ^ 20 + off

/-- Fill policy of a partition: 0 FILL_BATCH, 1 FILL_WEIGHTS. -/
def State.policy (s : State) (p : Nat) : Nat := Tbl.get 0 s.shape.fillPolicy p

/-! ### Tables of the state -/

/-- A cluster. -/
def State.cluster (s : State) (c : Nat) : Cluster := Tbl.get Cluster.fresh s.clusters c

/-- Write a cluster. -/
def State.setCluster (s : State) (c : Nat) (x : Cluster) : State := { s with clusters := Tbl.set c x s.clusters }

/-- Change a cluster. -/
def State.onCluster (s : State) (c : Nat) (f : Cluster → Cluster) : State := s.setCluster c (f (s.cluster c))

/-- The physical tile that answers to a logical number (R12, R141). -/
def Cluster.phys (x : Cluster) (t : Nat) : Nat := if x.spare.active && x.spare.target = t then 16 else t

/-- Key of a logical tile in the tile table. -/
def State.tileKey (s : State) (c t : Nat) : Nat := c * 17 + (s.cluster c).phys t

/-- A logical tile. -/
def State.tile (s : State) (c t : Nat) : Tile := Tbl.get Tile.fresh s.tiles (s.tileKey c t)

/-- Write a logical tile. -/
def State.setTile (s : State) (c t : Nat) (x : Tile) : State := { s with tiles := Tbl.set (s.tileKey c t) x s.tiles }

/-- Change a logical tile. -/
def State.onTile (s : State) (c t : Nat) (f : Tile → Tile) : State := s.setTile c t (f (s.tile c t))

/-- The logical tiles of a cluster. -/
def State.tilesOf (s : State) : List Nat := List.range s.tpc

/-- A physical tile's silicon. -/
def State.silicon (s : State) (key : Nat) : TileHw := Tbl.get TileHw.fresh s.hw key

/-- Change a physical tile's silicon. -/
def State.onSilicon (s : State) (key : Nat) (f : TileHw → TileHw) : State :=
  { s with hw := Tbl.set key (f (s.silicon key)) s.hw }

/-- Key of a context in this die's table: its ID for a home context, and a number of its own for another die's (R298). -/
def State.ctxKey (s : State) (die id : Nat) : Nat := if die = s.die then id else (die + 1) * 4096 + id

/-- A context. -/
def State.ctx (s : State) (k : Nat) : Ctx := Tbl.get Ctx.fresh s.ctxs k

/-- Write a context. -/
def State.setCtx (s : State) (k : Nat) (x : Ctx) : State := { s with ctxs := Tbl.set k x s.ctxs }

/-- Change a context. -/
def State.onCtx (s : State) (k : Nat) (f : Ctx → Ctx) : State := s.setCtx k (f (s.ctx k))

/-- A host queue. -/
def State.queue (s : State) (q : Nat) : HostQ := Tbl.get HostQ.fresh s.queues q

/-- Write a host queue. -/
def State.setQueue (s : State) (q : Nat) (x : HostQ) : State := { s with queues := Tbl.set q x s.queues }

/-- Change a host queue. -/
def State.onQueue (s : State) (q : Nat) (f : HostQ → HostQ) : State := s.setQueue q (f (s.queue q))

/-- An object descriptor slot of this die. -/
def State.obj (s : State) (i : Nat) : Obj := Tbl.get Obj.fresh s.objs i

/-- Write a descriptor slot. -/
def State.setObj (s : State) (i : Nat) (x : Obj) : State := { s with objs := Tbl.set i x s.objs }

/-- Change a descriptor slot. -/
def State.onObj (s : State) (i : Nat) (f : Obj → Obj) : State := s.setObj i (f (s.obj i))

/-- Key of a task: its dispatching die and its sequence there. -/
def taskKey (die : Nat) (seq : Word) : Nat := die * 2 ^ 32 + seq.toNat

/-- A task in flight. -/
def State.task? (s : State) (k : Nat) : Option Task := Tbl.find k s.tasks

/-- Write a task. -/
def State.setTask (s : State) (k : Nat) (t : Task) : State := { s with tasks := Tbl.set k t s.tasks }

/-- Change a task in flight, if there is one. -/
def State.onTask (s : State) (k : Nat) (f : Task → Task) : State :=
  match s.task? k with
  | none => s
  | some t => s.setTask k (f t)

/-- A front port. -/
def State.port (s : State) (f : Nat) : Front := Tbl.get (Front.fresh f) s.front f

/-- Change a front port. -/
def State.onPort (s : State) (f : Nat) (g : Front → Front) : State :=
  { s with front := Tbl.set f (g (s.port f)) s.front }

/-- A cellar port. -/
def State.cport (s : State) (p : Nat) : CellarPort := Tbl.get CellarPort.fresh s.cellar p

/-- Change a cellar port. -/
def State.onCport (s : State) (p : Nat) (g : CellarPort → CellarPort) : State :=
  { s with cellar := Tbl.set p (g (s.cport p)) s.cellar }

/-- A span port. -/
def State.spanOf (s : State) (p : Nat) : Span := Tbl.get Span.fresh s.span p

/-- Change a span port. -/
def State.onSpan (s : State) (p : Nat) (f : Span → Span) : State := { s with span := Tbl.set p (f (s.spanOf p)) s.span }

/-- The span port that a message to another package leaves by: the direction with fewer crossings, ascending on a tie in a
ring; where it is lost, the other way round a ring (R496, R499). -/
def State.portTo (s : State) (die : Nat) : Option Nat :=
  let n := s.cfg.npkg
  let p := s.die / 2
  let q := die / 2
  if p = q || s.spans = 0 then none
  else
    let ring := (s.spanOf 0).ring || (s.spanOf 1).ring
    let up := (q + n - p) % n
    let down := (p + n - q) % n
    let first := if ring then (if up ≤ down then 1 else 0) else if p < q then 1 else 0
    if (s.spanOf first).st ≠ 7 then some first
    else if ring && (s.spanOf (1 - first)).st ≠ 7 then some (1 - first)
    else none

/-- A frame goes out on a span port and stays in its replay buffer until it is acknowledged (R509). -/
def Span.transmit (p : Span) : Span :=
  { p with sendSeq := (p.sendSeq + 1) % 4096, replays := p.replays ++ [p.sendSeq] }

/-- Send a message to another die (Table 18-2); over a span it takes a frame of its own (R507). -/
def State.send (s : State) (die : Nat) (m : LMsg) : State :=
  let s := { s with linkOut := s.linkOut ++ [(die, m)] }
  match s.portTo die with
  | none => s
  | some p => s.onSpan p Span.transmit

/-! ### Free values (log 4) -/

/-- Draw a free word. -/
def State.freeWord (s : State) : Word × State := (Config.freeWord s.free, { s with free := s.free + 1 })

/-- Draw a free entry. -/
def State.freeEntry (s : State) : Entry × State := (Config.freeEntry s.free, { s with free := s.free + 1 })

/-- Draw a free line. -/
def State.freeLine (s : State) : BitVec 1024 × State := (Config.freeLine s.free, { s with free := s.free + 1 })

/-! ### Counting (R280, R493) -/

/-- Add to one stall counter of a context (R280, 64 bits). -/
def State.stallCtx (s : State) (k cause n : Nat) : State :=
  s.onCtx k (fun x => { x with stall := Tbl.set cause ((Tbl.get 0 x.stall cause + n) % 2 ^ 64) x.stall })

/-- The context, as a key, of the task a cluster runs. -/
def State.clusterCtx (s : State) (c : Nat) : Option Nat :=
  match (s.cluster c).task with
  | none => none
  | some k => (s.task? k).map (fun t => s.ctxKey t.die t.ctx.toNat)

/-- Whether stalls of a cluster count: from release until it ends or aborts (R280). -/
def Phase.counts : Phase → Bool
  | .loading => true
  | .running => true
  | _ => false

/-- Whether a cluster spends its run's budget: its stage copy and the wait for the other clusters' copies count (R320). -/
def Phase.spends : Phase → Bool
  | .loading => true
  | .running => true
  | .staging => true
  | .ready => true
  | _ => false

/-- Blocked cycles of a cluster under a cause, whatever its phase. -/
def State.stallBy (s : State) (c cause n : Nat) : State :=
  match s.clusterCtx c with
  | none => s
  | some k => s.stallCtx k cause n

/-- One blocked cycle of a slot or sequencer of a cluster under a cause (R280, R281; log 13). -/
def State.stall (s : State) (c cause : Nat) : State :=
  if (s.cluster c).phase.counts then s.stallBy c cause 1 else s

/-- Charge energy in pJ to a context (R493, R494). -/
def State.charge (s : State) (k pj : Nat) : State := s.onCtx k (fun x => { x with energy := x.energy + pj })

/-- Charge energy in pJ to the context that a cluster works for. -/
def State.chargeCl (s : State) (c pj : Nat) : State :=
  match s.clusterCtx c with
  | none => s
  | some k => s.charge k pj

/-- Map over a list of numbers, threading the state. -/
def State.each (s : State) (l : List Nat) (f : State → Nat → State) : State := l.foldl f s

end Sys2Proof.Machine
end

