-- ==== Sys2Proof/Machine/Runs.lean ====
section
/-! DEFINITION. What happens to a run when it is stopped: aborts, faults and NaN events (R294, R421, R430, R537). -/
namespace Sys2Proof.Machine

/-- The order of R430 in which the ends of one run apply; a NaN stop and an abort under R288 come last (log 14). -/
def EndCause.rank : EndCause → Nat
  | .lost => 0
  | .capacity => 1
  | .fault _ _ _ _ => 2
  | .coolant => 3
  | .budget => 4
  | .nan => 5
  | .followOn => 6

/-- Of two ends of one run, the one that applies; of two of one rank, the earlier (R430). A fault found after an abort has
begun is not charged to the run (R422); a NaN stop is no abort, and a fault takes precedence over it (R537). -/
def EndCause.join (old : Option EndCause) (new : EndCause) : EndCause :=
  match old, new with
  | none, n => n
  | some .coolant, .fault _ _ _ _ => .coolant
  | some .budget, .fault _ _ _ _ => .budget
  | some .followOn, .fault _ _ _ _ => .followOn
  | some o, n => if n.rank < o.rank then n else o

/-- Whether an access of a stopped tile still has to come to its end: one whose granules or messages are out, or a local
write (R295). What has not left the tile, and local reads, are discarded. -/
def Access.inFlight (a : Access) : Bool :=
  match a.rd, a.wr with
  | some (.cellar _), _ => a.granted
  | some (.remote _ _ _ _ _), _ => a.granted
  | some _, _ => false
  | none, some (.here _) => true
  | none, some .suppressed => false
  | none, _ => a.granted

/-- A tile that stops: every queue and every verb is discarded; accesses in flight stay until they end (R294, R295). The
comparisons of groups already closed are still due: one that fails after a NaN stop is a fault that takes precedence (R537,
log 14). RESIDUE counts what is left when a cluster ends, not what an abort discards, also where that abort ends the task:
the manual is silent there (DESIGN CHOICE, log 47). -/
def Tile.halt (t : Tile) : Tile :=
  { t with
    queues := []
    clauseQ := []
    vact := none
    lact := none
    sact := none
    blocks := []
    ctWait := []
    shared := []
    uses := []
    extOwed := []
    accs := (t.accs.filter Access.inFlight).map (fun a =>
      { a with dests := [], wr := if a.rd.isSome then none else a.wr, ctr := none }) }

/-- Stop one cluster's run (R294): no field issues any more, queues and mailbox are discarded. -/
def State.haltCluster (s : State) (c : Nat) : State :=
  let s := s.each s.tilesOf (fun s t => s.onTile c t Tile.halt)
  s.onCluster c (fun x =>
    { x with phase := .stopped, mbox := [], loops := [], extIn := [], areq := [], ares := [], paraEnded := true })

/-- The clusters of this die that a task holds now. -/
def State.holding (s : State) (k : Nat) : List Nat :=
  (List.range 32).filter (fun c => (s.cluster c).task = some k)

/-- A running task's run stops on this die for a cause: its clusters halt, and messages to them that wait for an entry are
discarded (R226, R294). -/
def State.stopRun (s : State) (k : Nat) (t : Task) (cause : EndCause) : State :=
  let s := s.setTask k { t with life := .aborting, cause := some cause }
  let s := { s with mails := s.mails.filter (fun l => l.task ≠ k) }
  s.each (s.holding k) State.haltCluster

/-- Stop one task's run for a cause (R294, R537): its clusters halt, the other dies of the run are told. A task past its
commit point goes on (R267); one that has not begun is not touched; one that waits for its re-run will not have it. -/
def State.abortOne (s : State) (k : Nat) (cause : EndCause) : State :=
  match s.task? k with
  | none => s
  | some t =>
    match t.life with
    | .pending => s
    | .committing => s
    | .aborting => s.setTask k { t with cause := some (EndCause.join t.cause cause) }
    | .running => (t.layout.filter (fun d => d.1 ≠ s.die)).foldl (fun s d => s.send d.1 (.abort k false)) (s.stopRun k t cause)
    | .held => s.setTask k { t with life := .aborting, cause := some cause }
    | .copying => s.setTask k { t with life := .aborting, cause := some cause }

/-- The tasks that started early after one of the listed tasks, and those after them (R288). -/
def State.followers (s : State) : Nat → List Nat → List Nat
  | 0, ks => ks
  | n + 1, ks =>
    let more := (s.tasks.filter (fun p =>
      (match p.2.after with
        | some a => ks.contains a
        | none => false) && p.2.life = .running && !ks.contains p.1)).map Prod.fst
    if more = [] then ks else State.followers s n (ks ++ more)

/-- Stop a task's run, and every run that started early behind it (R288, R294). -/
def State.abortRun (s : State) (k : Nat) (cause : EndCause) : State :=
  let fs := (s.followers s.tasks.length [k]).drop 1
  fs.foldl (fun s f => s.abortOne f .followOn) (s.abortOne k cause)

/-- Count a corrected error of a tile (R138). -/
def State.corrected (s : State) (key : Nat) : State :=
  let s := s.onSilicon key (fun h => { h with corr := satTo 65535 (h.corr + 1) })
  { s with faults := { s.faults with corrected := satTo 65535 (s.faults.corrected + 1) } }

/-- A fault of class 1 to 3, localised to a tile of a cluster (Table 15-1). -/
def State.tileFault (s : State) (c t cls wher : Nat) : State :=
  let key := s.tileKey c t
  let s := s.onSilicon key (fun h =>
    if cls = 1 then { h with csum := satTo 255 (h.csum + 1) } else { h with detect := satTo 255 (h.detect + 1) })
  match (s.cluster c).task with
  | none => s
  | some k => s.abortRun k (.fault cls wher c (key % 17))

/-- A fault of a cluster's run that is not localised to a tile (Table 15-1). -/
def State.clusterFault (s : State) (c cls wher : Nat) : State :=
  match (s.cluster c).task with
  | none => s
  | some k => s.abortRun k (.fault cls wher c 31)

/-- What an upset inside a tile's step does (R138, R421): a residue mismatch is class 2; parity and uncorrectable storage
are class 3. -/
def State.upset (s : State) (c t : Nat) (u : Upset) : State :=
  match u with
  | .clean => s
  | .corrected => s.corrected (s.tileKey c t)
  | .residue => s.tileFault c t 2 0
  | .parity => s.tileFault c t 3 0
  | .uncorrectable => s.tileFault c t 3 0

/-- Whether an upset stops the run. -/
def upsetStops : Upset → Bool
  | .residue => true
  | .parity => true
  | .uncorrectable => true
  | _ => false

/-- Whether a task's descriptor sets TRAP (Table 11-6). -/
def Task.trap (t : Task) : Bool := bitN t.desc.toNat 4

/-- KIND of a NaN event (Table 03-4). -/
def NanEv.kind : NanEv → Option Nat
  | .none => Option.none
  | .written => some 0
  | .lost => some 1
  | .infF8 => some 2

/-- NaN events of one step of a verb: with TRAP set they are candidates for the record, and the run stops (R97, R537). -/
def State.nanEvents (s : State) (c : Nat) (recs : List NanRec) : State :=
  match recs, (s.cluster c).task with
  | [], _ => s
  | _, none => s
  | _, some k =>
    match s.task? k with
    | none => s
    | some t =>
      if t.trap && t.life = .running then
        (s.setTask k { t with nans := t.nans ++ recs }).abortRun k .nan
      else s

/-- Order of R98 among the events of one cluster, and the lowest task-relative cluster first (R537). -/
def NanRec.before (a b : NanRec) : Bool :=
  if a.rel ≠ b.rel then a.rel < b.rel
  else if a.seq ≠ b.seq then a.seq < b.seq
  else if a.slot ≠ b.slot then a.slot < b.slot
  else if a.tile ≠ b.tile then a.tile < b.tile
  else a.elem < b.elem

/-- The first of a list of events under R98 and R537. -/
def NanRec.first : List NanRec → Option NanRec
  | [] => none
  | x :: r =>
    match NanRec.first r with
    | none => some x
    | some y => some (if y.before x then y else x)

end Sys2Proof.Machine
end

