-- ==== Sys2Proof/Machine/Flags.lean ====
section
/-! DEFINITION. Predicate bits, clause conditions, and what CLAUSE_ERR counts (06). Slots: 0 counter, 1 vector, 2 matrix,
3 load, 4 store, 5 sync. -/
namespace Sys2Proof.Machine

/-- A slot's field of a clause word (Table 06-1). -/
def slotField (slot : Nat) (w : BitVec 256) : Nat :=
  match slot with
  | 0 => bitsN w.toNat 24 24
  | 1 => bitsN w.toNat 48 56
  | 2 => bitsN w.toNat 104 40
  | 3 => bitsN w.toNat 144 48
  | 4 => bitsN w.toNat 192 40
  | _ => bitsN w.toNat 232 24

/-- VERB of a slot field (R149). -/
def verbOf (slot f : Nat) : Nat :=
  match slot with
  | 0 => bitsN f 0 5
  | 1 => bitsN f 0 7
  | 2 => bitsN f 0 5
  | _ => bitsN f 0 4

/-- The comparator of a tile; as at task start where none was set (R136). -/
def Tile.cmp (t : Tile) (n : Nat) : Cmp := Tbl.get { ctr := n, limit := 0, rel := 2, signed := false } t.cp n

/-- A counter of a tile. -/
def Tile.counter (t : Tile) (n : Nat) : Word := Tbl.get 0 t.ct n

/-- Write a counter. -/
def Tile.setCounter (t : Tile) (n : Nat) (v : Word) : Tile := { t with ct := Tbl.set n v t.ct }

/-- A base register of a tile (R173). -/
def Tile.base (t : Tile) (n : Nat) : Word := Tbl.get 0 t.ab n

/-- A constant of a tile (R125). -/
def Tile.konst (t : Tile) (n : Nat) : Word := Tbl.get 0 t.k n

/-- Whether a comparison holds (R124): 0 below, 1 at most, 2 equal, 3 not equal. -/
def relHolds (rel : Nat) (signed : Bool) (a b : Word) : Bool :=
  match rel with
  | 0 => if signed then a.slt b else a.ult b
  | 1 => if signed then a.sle b else a.ule b
  | 2 => a == b
  | _ => a != b

/-- Predicate bit Pn (R124). -/
def Tile.pred (t : Tile) (n : Nat) : Bool :=
  let c := t.cmp n
  relHolds c.rel c.signed (t.counter c.ctr) c.limit

/-- Whether a slot's field acts in a logical tile (R174). The mask is the one in force when the clause was broadcast. -/
def Clause.acts (cl : Clause) (slot : Nat) (tl : Nat) (t : Tile) : Bool :=
  let h := cl.word.toNat
  if slot < 5 && bitN h slot then
    cl.mask.getLsbD tl && (!bitN h 8 || (t.pred (bitsN h 5 2) != bitN h 7))
  else true

/-- The bits of a slot field that its verb uses (R150, R187, R209); none for a reserved verb code. The sync verb DRAIN, whose
condition is True, uses neither QUEUE nor TVAL (DESIGN CHOICE, log 47: the manual names their unused fields for WAITP and
WAITX only). -/
def usedBits (slot verb f : Nat) : Option Nat :=
  match slot with
  | 0 =>
    match verb with
    | 0x00 => some 0x1F
    | 0x01 => some (0x1F + 0xE0 + 0xFE0000)
    | 0x02 => some (0x1F + 0xE0 + 0x700 + 0xFE0000)
    | 0x03 => some (0x1F + 0xE0 + 0x700 + 0x3E0000)
    | 0x04 => some (0x1F + 0xE0 + 0x700 + 0xFE0000)
    | 0x05 | 0x06 | 0x07 | 0x08 | 0x09 | 0x0A | 0x0B | 0x0C | 0x0D => some (0x1F + 0xE0 + 0x700)
    | 0x0E => some (0x1F + 0xE0 + 0xFE0000)
    | 0x0F => some (0x1F + 0x700 + 0x60000)
    | 0x10 => some (0x1F + 0xE0 + 0x60000)
    | 0x11 => some (0x1F + 0x60 + 0x700 + 0x7E0000)
    | 0x12 => some (0x1F + 0xE0 + 0x700)
    | 0x13 => some (0x1F + 0xE0 + 0xF800 + 0x10000)
    | 0x14 => some (0x1F + 0x700 + 0xF800 + 0x10000)
    | 0x18 => some (0x1F + 0xE0 + 0x700 + 0xE0000)
    | 0x19 => some (0x1F + 0xE0 + 0x700)
    | 0x1A => some (0x1F + 0xE0 + 0x700 + 0x7E0000)
    | 0x1B => some (0x1F + 0xE0 + 0x60000)
    | _ => none
  | 1 =>
    -- VERB SRC0 DST TOK TMODE FMT_IN FMT_OUT SR SRN NCT
    let one := 0x7F + 0x780 + 0xF0000 + 0xF00000 + 0x3000000 + 0x1C000000 + 0xE0000000 + 2 ^ 32 + 3 * 2 ^ 33 + 7 * 2 ^ 35
    let src1 := if bitN f 15 then 0x3800 + 0x8000 else 0x7800 + 0x8000
    let aux := 15 * 2 ^ 38
    let auxSrc := if bitN f 42 then 7 * 2 ^ 38 + 2 ^ 42 else aux + 2 ^ 42
    let gsz := 3 * 2 ^ 43
    let auxen := 2 ^ 45
    let xop := 7 * 2 ^ 46
    let eqb := if bitN f 48 then 15 * 2 ^ 49 + 7 * 2 ^ 53 else 0
    match verb with
    | 0x00 => some 0x7F
    | 0x01 => some (one + aux + gsz + auxen)
    | 0x02 => some (one + src1 + 2 ^ 46 + aux + gsz + auxen)
    | 0x03 => some (one + src1 + aux + gsz + xop + eqb)
    | 0x04 => some (one + aux + gsz + xop + eqb)
    | 0x08 | 0x09 | 0x0A | 0x0C | 0x0D | 0x14 => some (one + src1)
    | 0x0B | 0x11 => some (one + src1 + auxSrc)
    | 0x0E | 0x0F | 0x18 | 0x19 | 0x1A | 0x1D => some one
    | 0x10 => some (one + src1 + xop)
    | 0x15 => some (one + xop)
    | 0x1C => some (one - 2 ^ 32 - 3 * 2 ^ 33 + xop + aux + auxen)
    | 0x20 | 0x21 | 0x22 | 0x23 | 0x24 | 0x25 | 0x26 | 0x27 => some (one + src1)
    | 0x40 => some (0x7F + 0x780 + 0xF00000 + 0x3000000 + 0x1C000000 + 0xE0000000 + 7 * 2 ^ 35 + xop + 15 * 2 ^ 49 + 7 * 2 ^ 53)
    | _ => none
  | 2 =>
    match verb with
    | 0 => some 0x1F
    | 1 => some (2 ^ 37 - 1)
    | _ => none
  | 3 =>
    match verb with
    | 0 => some 0xF
    | 1 | 2 => some (2 ^ 36 - 1)
    | 3 => some (0xF + 0x1E00 + 0x1E000 + 0x60000 + 0xFFFF * 2 ^ 20)
    | 4 => some (0xF + 0x1F0 + 0x80000 + 0xFFFF * 2 ^ 20 + 31 * 2 ^ 36)
    | _ => none
  | 4 =>
    match verb with
    | 0 => some 0xF
    | 1 => some (2 ^ 30 - 1)
    | 2 => some (0xF + 0x1F0 + 0x2000 + 0xFFFF * 2 ^ 14 + 31 * 2 ^ 30)
    | _ => none
  | _ =>
    match verb with
    | 0 => some 0xF
    | 1 | 2 | 4 | 5 => some (2 ^ 22 - 1)
    | 3 | 7 => some (0xF + 0x1F0 + 0x3E0000)
    | 6 => some (0xF + 0x1F0 + 7 * 2 ^ 13 + 0x3E0000)
    | _ => none

/-- Whether a field has non-zero bits that its verb does not use (R150). -/
def fieldWarns (slot f : Nat) : Bool :=
  match usedBits slot (verbOf slot f) f with
  | none => false
  | some m => Nat.land f m != f

/-- Count fields for WARN (R150, Table 06-15). -/
def Tile.warn (t : Tile) (n : Nat) : Tile := { t with errWarn := satTo 255 (t.errWarn + n) }

/-- Record an illegal field in CLAUSE_ERR and CLAUSE_ERR_AT (R176, R178). -/
def Tile.illegal (t : Tile) (cause slot addr : Nat) : Tile :=
  let t := { t with errCount := satTo 65535 (t.errCount + 1) }
  if t.errValid then t else { t with errValid := true, errCause := cause, errSlot := slot, errAt := addr }

/-- Count a suppressed access (R129, R172, R532). -/
def Tile.outOfWindow (t : Tile) : Tile := { t with oow := satTo 65535 (t.oow + 1) }

/-- The task side of a WARN (Table 11-9). -/
def State.warnField (s : State) (c t n : Nat) : State :=
  if n = 0 then s
  else
    let s := s.onTile c t (fun x => x.warn n)
    match (s.cluster c).task with
    | none => s
    | some k => s.onTask k (fun x => { x with warn := true })

/-- Free values for a list of keys. -/
def freeTbl (keys : List Nat) (n : Nat) : Tbl Word := keys.map (fun i => (i, Config.freeWord (n + i)))

/-- Free data and tokens for the entries of the queues, their numbers kept. -/
def freeQueues : Tbl (List QEntry) → Nat → Tbl (List QEntry)
  | [], _ => []
  | (q, es) :: r, n =>
    (q, (es.zip (List.range es.length)).map (fun p =>
      { p.1 with data := Config.freeEntry (n + p.2), tok := (Config.freeWord (n + p.2)).truncate 4 })) ::
      freeQueues r (n + es.length)

/-- Count of entries of a tile's queues. -/
def Tile.held (t : Tile) : Nat := t.queues.foldl (fun n q => n + q.2.length) 0

/-- The undefined effect of an illegal field within R177: the tile's counters, limits, constants, bases, generator positions
and queue contents take free values (log 15). -/
def State.scramble (s : State) (c t : Nat) : State :=
  let n := s.free
  let h := (s.tile c t).held
  let s := s.onTile c t (fun x =>
    { x with
      ct := freeTbl (List.range 8) n
      ab := freeTbl (List.range 4) (n + 8)
      k := freeTbl (List.range 8) (n + 12)
      cp := (List.range 4).map (fun i => (i, { x.cmp i with limit := Config.freeWord (n + 20 + i) }))
      pos := x.pos.map (fun p => (p.1, (Config.freeWord (n + 24 + p.1)).toNat % 65536))
      queues := freeQueues x.queues (n + 24 + 256) })
  { s with free := n + 24 + 256 + h }

/-- An illegal field issues: counted, recorded, its effect undefined (R176, R177). -/
def State.illegalField (s : State) (c t slot cause addr : Nat) : State :=
  let s := s.onTile c t (fun x => x.illegal cause slot addr)
  let s := match (s.cluster c).task with
    | none => s
    | some k => s.onTask k (fun x => { x with illegal := satTo 65535 (x.illegal + 1) })
  s.scramble c t

end Sys2Proof.Machine
end

