-- ==== Sys2Proof/Machine/Operands.lean ====
section
/-! DEFINITION. Operand forms of the slots: queue ends and tokens (R131 to R134, R160), descriptors and their address
generators (R168 to R171), object-list entries, and where an access falls (R129, R172, R254, R289). -/
namespace Sys2Proof.Machine

/-! ### Queue ends (Table 06-4) -/

/-- The entries of a queue, oldest first. -/
def Tile.queue (t : Tile) (q : Nat) : List QEntry := Tbl.get [] t.queues q

/-- Write a queue. -/
def Tile.setQueue (t : Tile) (q : Nat) (es : List QEntry) : Tile := { t with queues := Tbl.set q es t.queues }

/-- The head entry, if it can be popped (R133). -/
def Tile.head (t : Tile) (q : Nat) : Option QEntry :=
  match t.queue q with
  | [] => none
  | e :: _ => if e.ready then some e else none

/-- A queue without its head. -/
def Tile.pop (t : Tile) (q : Nat) : Tile := t.setQueue q ((t.queue q).drop 1)

/-- Free entries of a queue (R132). -/
def Tile.room (t : Tile) (q : Nat) : Nat := 64 - (t.queue q).length

/-- Push an entry that can be popped (R133). -/
def Tile.push (t : Tile) (q : Nat) (d : Entry) (tok : BitVec 4) : Tile :=
  t.setQueue q (t.queue q ++ [{ data := d, tok := tok, ready := true, id := 0 }])

/-- Reserve an entry whose data arrive later (R272); its identity is the tile's present number. -/
def Tile.reserve (t : Tile) (q : Nat) (tok : BitVec 4) : Tile :=
  let e : QEntry := { data := 0, tok := tok, ready := false, id := t.nextId }
  { t.setQueue q (t.queue q ++ [e]) with nextId := t.nextId + 1 }

/-- Whether a reserved entry's data are undefined when they come (R134). -/
def Tile.spoiltAt (t : Tile) (q id : Nat) : Bool := (t.queue q).any (fun e => !e.ready && e.id = id && e.spoilt)

/-- Fill a reserved entry. -/
def Tile.fill (t : Tile) (q id : Nat) (d : Entry) : Tile :=
  t.setQueue q (replaceIf (fun e => !e.ready && e.id = id) (fun e => { e with data := d, ready := true }) (t.queue q))

/-- Queue ends that a vector source, and AUX or EQ as input, may name. -/
def vSrcOk (q : Nat) : Bool := q ≤ 3 || q = 6 || (7 ≤ q && q ≤ 12) || q = 15

/-- Queue ends that a vector DST, and AUX or EQ as output, may name. -/
def vDstOk (q : Nat) : Bool := q = 4 || q = 5 || (7 ≤ q && q ≤ 14)

/-- Queue ends that ACCQ and SCQ may name. -/
def startQOk (q : Nat) : Bool := q ≤ 3 || (7 ≤ q && q ≤ 12)

/-- Token of an entry that a verb pushes (Table 06-10); `first` tells the first entry the issue pushes to its queue. -/
def tokenOf (tmode : Nat) (tok : BitVec 4) (first : Bool) (src : BitVec 4) : BitVec 4 :=
  match tmode with
  | 0 => tok
  | 1 => if first then tok else 0
  | _ => src

/-! ### Descriptors (Table 06-13) -/

/-- An address-generator descriptor read from its 48 bytes. -/
structure Desc where
  offset : Int
  space : Nat
  base : Nat
  baseEn : Bool
  nlev : Nat
  slot : Nat
  width : Nat
  obj : Nat
  counts : List Nat
  strides : List Int
deriving DecidableEq, Repr

/-- Read a descriptor (R169). -/
def Desc.of (w : BitVec 384) : Desc :=
  let x := w.toNat
  { offset := sextN 32 (bitsN x 0 32)
    space := bitsN x 32 2
    base := bitsN x 34 2
    baseEn := bitN x 36
    nlev := bitsN x 37 3
    slot := bitsN x 40 3
    width := bitsN x 43 2
    obj := bitsN x 48 6
    counts := (List.range 6).map (fun l => bitsN x (64 + 48 * l) 16)
    strides := (List.range 6).map (fun l => sextN 32 (bitsN x (80 + 48 * l) 32)) }

/-- Bytes per step of a WIDTH code. -/
def widthBytes (w : Nat) : Nat := if w = 0 then 4 else if w = 1 then 64 else 128

/-- A descriptor of a cluster. -/
def Cluster.desc (x : Cluster) (d : Nat) : Desc := Desc.of (Tbl.get 0 x.agd d)

/-- The six indices of a tile's position in a descriptor (R168). -/
def Tile.position (t : Tile) (d : Nat) : List Nat := (List.range 6).map (fun l => Tbl.get 0 t.pos (8 * d + l))

/-- Write a position. -/
def Tile.setPosition (t : Tile) (d : Nat) (is : List Nat) : Tile :=
  { t with pos := (is.zip (List.range 6)).foldl (fun m p => Tbl.set (8 * d + p.2) p.1 m) t.pos }

/-- GRST: the position returns to zero (R168). -/
def Tile.grst (t : Tile) (d : Nat) : Tile := t.setPosition d [0, 0, 0, 0, 0, 0]

/-- The address of the present position (R171). -/
def Desc.addr (d : Desc) (is : List Nat) (ab : Word) : Int :=
  let a := d.offset + (if d.baseEn then (ab.toNat : Int) else 0)
  let a := ((is.zip d.strides).take d.nlev).foldl (fun a p => a + (p.1 : Int) * p.2) a
  let w : Int := (widthBytes d.width : Int)
  a - a % w

/-- The position after one step: level 0 innermost, past the top back to zero (R171). -/
def nextIdx : Nat → List Nat → List Nat → List Nat
  | 0, is, _ => is
  | _ + 1, [], _ => []
  | _ + 1, i :: r, [] => i :: r
  | n + 1, i :: r, c :: cs => if i < c then (i + 1) :: r else 0 :: nextIdx n r cs

/-- Advance a tile's position in a descriptor (R171). -/
def Tile.advance (t : Tile) (n : Nat) (d : Desc) : Tile := t.setPosition n (nextIdx d.nlev (t.position n) d.counts)

/-! ### Objects as storage (R254, R303, R304) -/

/-- Storage granule of a tier in bytes (Table 09-4). -/
def State.granule (s : State) (tier : Nat) : Nat := if tier = 0 then 128 * s.tpc else if tier = 1 then 4096 else 65536

/-- A size rounded up to granules, in granules. -/
def State.granules (s : State) (tier size : Nat) : Nat := (size + s.granule tier - 1) / s.granule tier

/-- The handle of a descriptor slot (R303). -/
def State.handle (s : State) (slot : Nat) : Word :=
  let o := s.obj slot
  BitVec.ofNat 32 (o.part * 2 ^ 29 + o.gen * 2 ^ 20 + s.die * 2 ^ 16 + slot)

/-- First granule of a version. -/
def Obj.baseOf (o : Obj) (ver : Bool) : Nat := if o.committed && ver then o.base1 else o.base0

/-- Where byte b of an object's version lies (Table 09-4): a flat address of this die, or a cellar address. -/
def State.objByte (s : State) (o : Obj) (ver : Bool) (b : Nat) : Target :=
  match o.tier with
  | 0 =>
    let size := s.granules 0 o.size * s.granule 0
    let slice := size / s.tpc
    .here (shelfAt (s.tileKey o.home (b / slice)) (o.baseOf ver * 128 + b % slice))
  | 1 => .here (larderAt o.home (o.baseOf ver * 4096 + b))
  | _ => .cellar (s.winAddr (o.baseOf ver * 65536 + b))

/-- A target as an address of the flat memory, where it is one of this die. -/
def Target.flat : Target → Option Nat
  | .here a => some a
  | .cellar a => some (cellarAt a)
  | _ => none

/-- A number of n bytes of an object, as the dispatcher reads it (little-endian, byte by byte). -/
def State.objNat (s : State) (o : Obj) (ver : Bool) (b n : Nat) : Nat :=
  leNat ((List.range n).map (fun i =>
    match (s.objByte o ver (b + i)).flat with
    | some a => memGet s.mem a
    | none => 0))

/-- Whether a task's paragraph object is a given one: writes to it are suppressed (R219). -/
def Task.isParagraph (t : Task) (die slot : Nat) : Bool := t.named.any (fun n => n.idx = 64 && n.die = die && n.slot = slot)

/-- Whether an object-list entry counts in a cluster (R258): an entry of the descriptor's list always, a binding where it
has taken effect. -/
def Named.inCluster (n : Named) (c : Nat) : Bool :=
  match n.bound with
  | none => true
  | some cs => cs.contains c

/-- The object-list entry that an index names in a cluster (R258, R313). -/
def Task.entry (t : Task) (c idx : Nat) : Option Named := t.named.find? (fun n => n.idx = idx && n.inCluster c)

/-! ### Windows (R129, R172, R255, R289) -/

/-- The task of a cluster. -/
def State.clusterTask (s : State) (c : Nat) : Option Task :=
  match (s.cluster c).task with
  | none => none
  | some k => s.task? k

/-- Whether an offset lies in the shelf or larder range of a named object's version at home in a cluster. -/
def State.inObject (s : State) (c tier off : Nat) (write : Bool) (n : Named) : Bool :=
  let o := s.obj n.slot
  n.inCluster c && n.die = s.die && o.tier = tier && o.home = c && (!write || n.output) &&
    (let len := s.granules tier o.size * (if tier = 0 then 128 else 4096)
     let lo := o.baseOf n.ver * (if tier = 0 then 128 else 4096)
     decide (lo ≤ off) && decide (off < lo + len))

/-- Where a shelf offset of a tile falls (R129, R172). -/
def State.shelfTarget (s : State) (c t : Nat) (a : Int) (write : Bool) : Target :=
  let off := (a % (s.shelfSize : Int)).toNat
  match s.clusterTask c with
  | none => .suppressed
  | some k =>
    if off < s.shelfWork k.part || k.named.any (fun n => s.inObject c 0 off write n && !(write && k.isParagraph n.die n.slot)) then .here (shelfAt (s.tileKey c t) off)
    else .suppressed

/-- Where a larder offset falls, with the stage window of FILL_WEIGHTS (R172, R289). -/
def State.larderTarget (s : State) (c : Nat) (a : Int) (write : Bool) : Target :=
  let off := (a % (s.larderSize : Int)).toNat
  match s.clusterTask c with
  | none => .suppressed
  | some k =>
    let w := s.larderWork k.part
    if k.named.any (fun n => s.inObject c 1 off write n && !(write && k.isParagraph n.die n.slot)) then .here (larderAt c off)
    else if s.policy k.part = 1 then
      if off < w / 2 then .here (larderAt c off)
      else if off < 3 * (w / 4) && !write then .here (larderAt c (off + (s.cluster c).stageSel * (w / 4)))
      else .suppressed
    else if off < w then .here (larderAt c off)
    else .suppressed

/-- Whether a task may write an object through one of its entries: the entry, or another one that counts in the cluster and
names the same version, has the role output (R172). -/
def Task.mayWrite (t : Task) (c : Nat) (n : Named) : Bool :=
  !t.isParagraph n.die n.slot &&
    t.named.any (fun m => m.die = n.die && m.slot = n.slot && m.ver = n.ver && m.output && m.inCluster c)

/-- Size of the object that an entry names: this die's descriptor has it, another die's was learnt at dispatch. -/
def State.sizeOf (s : State) (n : Named) : Nat := if n.die = s.die then (s.obj n.slot).size else n.size

/-- Where a task-object access falls (R172, R255). -/
def State.objectTarget (s : State) (c idx : Nat) (a : Int) (width : Nat) (write : Bool) : Target :=
  match s.clusterTask c with
  | none => .suppressed
  | some k =>
    match k.entry c idx with
    | none => .suppressed
    | some n =>
      if a < 0 || (write && !k.mayWrite c n) || s.sizeOf n < a.toNat + width then .suppressed
      else if n.die = s.die then s.objByte (s.obj n.slot) n.ver a.toNat
      else .remote n.die n.slot n.ver a.toNat (n.tier = 2)

/-- Where one step of a descriptor falls (R172). -/
def State.target (s : State) (c t : Nat) (d : Desc) (a : Int) (write : Bool) : Target :=
  match d.space with
  | 0 => s.shelfTarget c t a write
  | 1 => s.larderTarget c a write
  | _ => s.objectTarget c d.obj a (widthBytes d.width) write

/-- Whether an object-list index is neither below NOBJ nor bound (Table 06-14 row 6). -/
def State.objMissing (s : State) (c idx : Nat) : Bool :=
  match s.clusterTask c with
  | none => true
  | some k => (k.entry c idx).isNone

/-! ### Illegal fields (Table 06-14, R196, R197, R202, R208, R210, R257) -/

/-- Causes of a named descriptor for its owning slot (R170). -/
def State.descCauses (s : State) (c owner d : Nat) : List Nat :=
  let x := (s.cluster c).desc d
  (if x.nlev = 0 || x.nlev = 7 || x.width = 3 || x.space = 3 || !(x.slot = 0 || x.slot = 3 || x.slot = 4) then [2] else []) ++
  (if x.slot ≠ owner || (owner = 0 && (x.width ≠ 0 || x.space ≠ 0)) || (owner ≠ 0 && x.width = 0) then [5] else []) ++
  (if x.space = 2 && s.objMissing c x.obj then [6] else [])

/-- Causes of the pair of descriptors of a FILL or SPILL (R210). -/
def State.pairCauses (s : State) (c mem shelf : Nat) : List Nat :=
  let m := (s.cluster c).desc mem
  let h := (s.cluster c).desc shelf
  if h.space ≠ 0 || m.space = 0 || m.width ≠ h.width then [5] else []

/-- Causes of a counter field. -/
def State.counterCauses (s : State) (c f : Nat) : List Nat :=
  let v := bitsN f 0 5
  let imm := bitsN f 17 7
  (if (usedBits 0 v f).isNone then [1] else []) ++
  (if v = 0x0E && 4 < imm then [2] else []) ++
  (if (v = 0x18 || v = 0x1B) && imm % 4 = 3 then [2] else []) ++
  (if v = 0x13 || v = 0x14 then s.descCauses c 0 (bitsN f 11 5) else [])

/-- Causes of a vector field. -/
def vectorCauses (f : Nat) : List Nat :=
  let v := bitsN f 0 7
  let src1 := v = 2 || v = 3 || v = 8 || v = 9 || v = 0xA || v = 0xB || v = 0xC || v = 0xD || v = 0x10 || v = 0x11 || v = 0x14 ||
    (0x20 ≤ v && v ≤ 0x27)
  let fi := bitsN f 26 3
  let fo := bitsN f 29 3
  let esc := bitN f 48
  let xop := bitsN f 46 3
  let auxen := bitN f 45
  let srnUsed := v ≠ 0x1C && v ≠ 0x40
  let gszUsed := v = 1 || v = 2 || v = 3 || v = 4
  if (usedBits 1 v f).isNone then [1]
  else if v = 0 then []
  else
    (if v ≠ 0x40 && (fi = 7 || fo = 7) then [2] else []) ++
    (if bitsN f 24 2 = 3 || (srnUsed && bitsN f 33 2 = 3) || (gszUsed && bitsN f 43 2 = 3) then [2] else []) ++
    (if (v = 0x15 && xop = 7) || (v = 0x10 && 6 ≤ xop) then [2] else []) ++
    (if !vSrcOk (bitsN f 7 4) then [3] else []) ++
    (if src1 && !bitN f 15 && !vSrcOk (bitsN f 11 4) then [3] else []) ++
    (if v ≠ 0x40 && !vDstOk (bitsN f 16 4) then [3] else []) ++
    (if (v = 0xB || v = 0x11) && !bitN f 42 && !vSrcOk (bitsN f 38 4) then [3] else []) ++
    (if (((v = 1 || v = 2 || v = 0x1C) && auxen) || v = 3) && !vDstOk (bitsN f 38 4) then [3] else []) ++
    (if v = 4 && !vSrcOk (bitsN f 38 4) then [3] else []) ++
    (if v = 3 && esc && !vDstOk (bitsN f 49 4) then [3] else []) ++
    (if v = 4 && esc && !vSrcOk (bitsN f 49 4) then [3] else []) ++
    (if v = 0x40 then []
     else if v = 3 then (if fi = 4 || fo ≠ 4 then [4] else [])
     else if v = 4 then (if fi ≠ 4 || fo = 4 then [4] else [])
     else if v = 0x1C then (if fi ≠ 5 || !(fo = 1 || fo = 2 || fo = 3 || fo = 4) then [4] else [])
     else if 0x20 ≤ v && v ≤ 0x27 then (if !fmtInt fi || fo = 4 then [4] else [])
     else if fi = 4 || fo = 4 then [4] else []) ++
    (if v = 3 && bitN f 15 then [4] else []) ++
    (if v = 2 && (bitN f 15 == bitN f 46) then [4] else [])

/-- Passes of an operand pair (Table 03-1): 0 for a pair that is not permitted. -/
def passesOf (a b : Nat) : Nat :=
  match a, b with
  | 2, 2 | 2, 3 | 3, 2 | 3, 3 => 1
  | 1, 1 => 1
  | 4, 1 | 1, 4 | 4, 2 | 2, 4 => 1
  | 0, 0 | 0, 1 | 1, 0 | 0, 4 | 4, 0 => 1
  | 5, 0 | 0, 5 => 2
  | 5, 5 => 3
  | _, _ => 0

/-- Whether a pair takes the exact path (Table 03-1). -/
def exactPair (a b : Nat) : Bool := a ≠ 0 && a ≠ 5 && b ≠ 0 && b ≠ 5

/-- Causes of a matrix field; those of the mode word are judged at issue with it (R176, R202). -/
def State.matrixCauses (s : State) (c f : Nat) (mode : Word) : List Nat :=
  let v := bitsN f 0 5
  let a := bitsN f 5 3
  let b := bitsN f 8 3
  let o := bitsN f 13 3
  let m := mode.toNat
  let sca := bitsN m 0 2
  let scb := bitsN m 2 2
  let sco := bitN m 20
  if (usedBits 2 v f).isNone then [1]
  else if v = 0 then []
  else
    (if a = 7 || b = 7 || o = 7 || bitsN f 11 2 = 3 || bitsN f 25 2 = 3 || bitsN f 28 2 = 3 || bitsN m 21 11 ≠ 0 then [2] else []) ++
    (if bitN f 16 && !startQOk (bitsN f 17 4) then [3] else []) ++
    (if (sca ≠ 0 || scb ≠ 0 || sco) && !startQOk (bitsN m 4 4) then [3] else []) ++
    (if passesOf a b = 0 || o = 4 || (o = 6 && !(fmtInt a && fmtInt b)) then [4] else []) ++
    (if o = 6 && (sca ≠ 0 || scb ≠ 0 || sco) then [4] else []) ++
    (if (sca = 3 && a ≠ 4) || (scb = 3 && b ≠ 4) then [4] else []) ++
    (if (sca = 3 && s.objMissing c (bitsN m 8 6)) || (scb = 3 && s.objMissing c (bitsN m 14 6)) then [6] else [])

/-- Causes of a load field. -/
def State.loadCauses (s : State) (c f : Nat) : List Nat :=
  let v := bitsN f 0 4
  let d := bitsN f 4 5
  if (usedBits 3 v f).isNone then [1]
  else
    (if (v = 1 || v = 2 || v = 3) && 2 ≤ bitsN f 17 2 then [2] else []) ++
    (if (v = 1 || v = 2 || v = 3) && 5 < bitsN f 9 4 then [3] else []) ++
    (if v = 1 || v = 2 || v = 4 then s.descCauses c 3 d else []) ++
    (if v = 2 && ((s.cluster c).desc d).space = 0 then [5] else []) ++
    (if v = 4 then s.descCauses c 3 (bitsN f 36 5) ++ s.pairCauses c d (bitsN f 36 5) else [])

/-- Causes of a store field. -/
def State.storeCauses (s : State) (c f : Nat) : List Nat :=
  let v := bitsN f 0 4
  let d := bitsN f 4 5
  if (usedBits 4 v f).isNone then [1]
  else
    (if v = 1 && !(bitsN f 9 4 = 13 || bitsN f 9 4 = 14) then [3] else []) ++
    (if v = 1 || v = 2 then s.descCauses c 4 d else []) ++
    (if v = 2 then s.descCauses c 4 (bitsN f 30 5) ++ s.pairCauses c d (bitsN f 30 5) else [])

/-- Causes of a sync field: any queue end may be observed. -/
def syncCauses (f : Nat) : List Nat := if (usedBits 5 (bitsN f 0 4) f).isNone then [1] else []

/-- Lowest-numbered cause for which a slot's field is illegal (R176). -/
def State.fieldCause (s : State) (c t slot f : Nat) : Option Nat :=
  minOf (match slot with
    | 0 => s.counterCauses c f
    | 1 => vectorCauses f
    | 2 => s.matrixCauses c f ((s.tile c t).counter (bitsN f 34 3))
    | 3 => s.loadCauses c f
    | 4 => s.storeCauses c f
    | _ => syncCauses f)

end Sys2Proof.Machine
end

