-- ==== Sys2Proof/Machine/Issue.lean ====
section
/-! DEFINITION. How a slot's field issues: clause order, sync holds, legality, warnings (R135, R150, R163, R176), and the
ordering of accesses (R130, R165, R167). -/
namespace Sys2Proof.Machine

/-- Fields that a slot has issued. -/
def Tile.issuedBy (t : Tile) (slot : Nat) : Nat := Tbl.get 0 t.issued slot

/-- The clause whose field a slot issues next (R135). -/
def Tile.nextClause (t : Tile) (slot : Nat) : Option Clause := t.clauseQ.find? (fun c => c.seq = t.issuedBy slot)

/-- A slot has issued its field: the clause leaves the clause queue when all six slots have (R135). -/
def Tile.passed (t : Tile) (slot : Nat) : Tile :=
  let t := { t with issued := Tbl.set slot (t.issuedBy slot + 1) t.issued }
  { t with clauseQ := t.clauseQ.filter (fun c => (List.range 6).any (fun k => t.issuedBy k ≤ c.seq)) }

/-- Whether a slot has issued its fields of every clause before n with all their steps, and every memory access of them is
complete (R137, R155, R163; log 42): a read of a counter or an allocator result too (R166), and in every acting tile the
shared read of an LDB (R208). -/
def Tile.drainedSlot (t : Tile) (n slot : Nat) : Bool :=
  decide (n ≤ t.issuedBy slot) && t.accs.all (fun a => a.slot ≠ slot || n ≤ a.seq) &&
    (match slot with
     | 0 => t.ctWait.all (fun w => n ≤ w.1)
     | 1 => (match t.vact with
        | some v => n ≤ v.seq
        | none => true)
     | 2 => t.blocks.all (fun b => n ≤ b.seq || (decide (b.k = b.K) && b.escArrived))
     | 3 => t.shared.all (fun m => n ≤ m) && (match t.lact with
        | some l => n ≤ l.seq
        | none => true)
     | 4 => (match t.sact with
        | some l => n ≤ l.seq
        | none => true)
     | _ => true)

/-- Whether the slots of a DRAIN field are drained of the clauses before n (R161, R163). -/
def Tile.drained (t : Tile) (n drain : Nat) : Bool :=
  (List.range 5).all (fun slot => !bitN drain slot || t.drainedSlot n slot)

/-- The stall cause of the sync field that the sync slot now stands at (R281). -/
def Tile.syncCause (t : Tile) : Nat :=
  match t.nextClause 5 with
  | none => 17
  | some c => if t.drained c.seq (bitsN (slotField 5 c.word) 17 5) then 17 else 18

/-- Whether the sync field of a clause still holds a slot (R163); NOP and illegal sync fields hold nothing. -/
def Tile.holds (t : Tile) (c : Clause) (slot : Nat) : Bool :=
  let f := slotField 5 c.word
  decide (slot < 5) && decide (t.issuedBy 5 ≤ c.seq) && verbOf 5 f != 0 && (usedBits 5 (verbOf 5 f) f).isSome &&
    bitN f (4 + slot)

/-- What keeps a slot from issuing. -/
inductive Wait where
  /-- nothing -/
  | go
  /-- an earlier verb still steps, which counts as no stall -/
  | busy
  /-- a stall of Table 10-3 -/
  | stall (cause : Nat)
deriving DecidableEq, Repr

/-- Whether a cluster's tiles issue fields. -/
def Cluster.issues (x : Cluster) : Bool := x.phase = .running

/-- One attempt of a slot to issue its next field, when that field has the given verb: sync holds and the slot's own
condition first, then the field issues; an illegal one has an undefined effect, a legal one does what its verb says. -/
def State.issueAs (s : State) (p : Place) (slot verb : Nat) (wait : Tile → Nat → Wait)
    (body : State → Clause → Nat → Bool → State) : State :=
  let c := p.cl.val
  let t := p.tile.val
  let x := s.tile c t
  if !(s.cluster c).issues || s.tpc ≤ t then s
  else
    match x.nextClause slot with
    | none => s
    | some cl =>
      let f := slotField slot cl.word
      if verbOf slot f ≠ verb then s
      else if x.holds cl slot then s.stall c x.syncCause
      else
        match wait x f with
        | .busy => s
        | .stall cause => s.stall c cause
        | .go =>
          let s1 := s.onTile c t (fun x => x.passed slot)
          let s1 := s1.warnField c t
            (b2n (fieldWarns slot f) + b2n (slot = 5 && bitsN cl.word.toNat 19 5 != 0))
          match s.fieldCause c t slot f with
          | some cause => s1.illegalField c t slot cause cl.addr
          | none => body s1 cl f (cl.acts slot t x)

/-! ### The ordering of accesses (R130, R165, R167) -/

/-- The logged accesses of one tile. -/
def Task.logOf (k : Task) (c t : Nat) : List AccLog := k.log.filter (fun a => a.cl = c && a.tile = t)

/-- Slot and issue count of a logged access. -/
def AccLog.point (a : AccLog) : Nat × Nat := (a.slot, a.seq)

/-- One round of R165 within a tile: from the first ordered point of each slot, through sync fields, to further ones. -/
def orderRound (syncs : List SyncRec) (pts : List (Nat × Nat)) (seen : List (Nat × Nat)) : List (Nat × Nat) :=
  seen ++ (syncs.flatMap (fun p =>
    if seen.any (fun x => x.2 < p.seq && bitN p.drain x.1) then
      (List.range 5).filterMap (fun t =>
        if bitN p.hold t then
          (minOf ((pts.filter (fun a => a.1 = t && p.seq ≤ a.2)).map Prod.snd)).map (fun n => (t, n))
        else none)
    else [])).filter (fun x => !seen.contains x)

/-- Rounds of `orderRound`. -/
def orderRounds (syncs : List SyncRec) (pts : List (Nat × Nat)) : Nat → List (Nat × Nat) → List (Nat × Nat)
  | 0, seen => seen
  | n + 1, seen => orderRounds syncs pts n (orderRound syncs pts seen)

/-- Whether what a slot did in one clause is ordered before what a slot of the same tile does in another: in clause order
within a slot, through sync fields between slots (R165). `pts` are the accesses that an order may pass through. -/
def Tile.ordered (t : Tile) (pts : List (Nat × Nat)) (a b : Nat × Nat) : Bool :=
  if a.1 = b.1 then a.2 ≤ b.2
  else (orderRounds t.syncs (b :: pts) 6 [a]).any (fun x => x.1 = b.1 && x.2 ≤ b.2)

/-- Whether access a is ordered before access b (R165, R234): by the commas and syncs of one cluster, by the semicolons and
full stops of one region, by the full stops of all. A cluster that has ended stands at every later full stop, so that its
accesses, of lower epochs, come before those of the clusters that went on (R235). -/
def State.orderedBefore (s : State) (k : Task) (a b : AccLog) : Bool :=
  if a.cl = b.cl then
    if a.commas < b.commas then true
    else if a.tile ≠ b.tile then false
    else (s.tile a.cl a.tile).ordered ((k.logOf a.cl a.tile).map AccLog.point) a.point b.point
  else (a.cl / 4 = b.cl / 4 && a.regEp < b.regEp) || a.stopEp < b.stopEp

/-- Whether two accesses share bytes. -/
def AccLog.overlaps (a b : AccLog) : Bool := a.lo < b.lo + b.len && b.lo < a.lo + a.len

/-- Whether no rule orders two accesses of a run, whichever came first here. -/
def State.unordered (s : State) (k : Task) (a b : AccLog) : Bool :=
  a ≠ b && !s.orderedBefore k a b && !s.orderedBefore k b a

/-- Whether a flat address lies in a scratch object of this die. -/
def State.scratchAt (s : State) (a : Nat) : Bool :=
  s.objs.any (fun p =>
    let o := p.2
    !o.committed && !o.fence && (o.st = .live || o.st = .freed || o.st = .removed) &&
      (let n := s.granules o.tier o.size
       match o.tier with
       | 0 => decide (a < 2 ^ 40) && o.home = a / 2 ^ 20 / 17 && decide (o.base0 * 128 ≤ a % 2 ^ 20) &&
           decide (a % 2 ^ 20 < (o.base0 + n) * 128)
       | 1 => decide (larderAt o.home (o.base0 * 4096) ≤ a) && decide (a < larderAt o.home ((o.base0 + n) * 4096))
       | _ => decide (cellarAt (s.winAddr (o.base0 * 65536)) ≤ a) && decide (a < cellarAt (s.winAddr ((o.base0 + n) * 65536)))))

/-- Whether a write of the run touches the bytes of an access without an order between them (R130, R134, R167): the bytes read
or left are then undefined. So are scratch bytes that two tasks in flight write (R270). -/
def State.conflicts (s : State) (k : Nat) (b : AccLog) : Bool :=
  match s.task? k with
  | none => false
  | some t =>
    t.log.any (fun a => a.write && a.overlaps b && s.unordered t a b) ||
      (b.write && s.tasks.any (fun p => p.1 ≠ k && p.2.log.any (fun a =>
        a.write && a.overlaps b && s.scratchAt (Nat.max a.lo b.lo))))

/-- The log entry of an access of a tile. -/
def State.accLog (s : State) (c t slot seq lo len : Nat) (write : Bool) (dests : List Dest := []) : AccLog :=
  let x := s.cluster c
  { cl := c, tile := t, slot := slot, seq := seq, lo := lo, len := len, write := write, commas := x.commas,
    regEp := x.regEpoch, stopEp := x.stopEpoch, dests := dests }

/-- The entry that a read reserved takes undefined data: now if the read has come, else when it comes (R130, R134). -/
def Tile.spoil (t : Tile) (q id : Nat) (v : Entry) : Tile :=
  t.setQueue q (replaceIf (fun e => e.id = id) (fun e => { e with data := if e.ready then v else e.data, spoilt := true }) (t.queue q))

/-- Spoil one queue entry. -/
def State.spoilDest (s : State) (c : Nat) (d : Dest) : State :=
  let (v, s) := s.freeEntry
  s.onTile c d.tile (fun x => x.spoil d.queue d.id v)

/-- A write that comes after a read of the same bytes with no order between them makes what the read left in its queues
undefined (R130, log 36). -/
def State.spoilReaders (s : State) (k : Nat) (w : AccLog) : State :=
  match s.task? k with
  | none => s
  | some t =>
    (t.log.filter (fun a => !a.write && a.overlaps w && s.unordered t a w)).foldl (fun s a =>
      a.dests.foldl (fun s d => s.spoilDest a.cl d) s) s

/-- Note an access in the log of the cluster's run. -/
def State.note (s : State) (c t slot seq : Nat) (tg : Option Target) (len : Nat) (write : Bool)
    (dests : List Dest := []) : State :=
  match tg.bind Target.flat, (s.cluster c).task with
  | some lo, some k =>
    let a := s.accLog c t slot seq lo len write dests
    let s := if write then s.spoilReaders k a else s
    s.onTask k (fun x => { x with log := x.log ++ [a] })
  | _, _ => s

/-! ### Queues that two slots push or pop (Table 05-3, R134) -/

/-- Whether two slots may push a queue (MA, MB), or pop it (LQ0 to LQ3, VQ0 to VQ5). -/
def twoSlots (push : Bool) (q : Nat) : Bool := if push then q = 4 || q = 5 else q ≤ 3 || (7 ≤ q && q ≤ 12)

/-- All entries of a queue become undefined. -/
def Tile.spoilQueue (t : Tile) (q n : Nat) : Tile :=
  t.setQueue q (((t.queue q).zip (List.range (t.queue q).length)).map (fun p =>
    { p.1 with data := if p.1.ready then Config.freeEntry (n + p.2) else p.1.data, spoilt := true }))

/-- Whether a use of a queue meets another slot's use with no order between them. -/
def Tile.contends (t : Tile) (pts : List (Nat × Nat)) (u : QUse) : Bool :=
  t.uses.any (fun o => o.queue = u.queue && o.push = u.push && o.slot ≠ u.slot &&
    !t.ordered pts (o.slot, o.seq) (u.slot, u.seq) && !t.ordered pts (u.slot, u.seq) (o.slot, o.seq))

/-- A slot pushes or pops a queue: where another slot does so too with no order between them, what the queue holds is
undefined (R134). -/
def State.useQueue (s : State) (c t slot seq q : Nat) (push : Bool) : State :=
  if !twoSlots push q then s
  else
    let x := s.tile c t
    let u : QUse := { queue := q, push := push, slot := slot, seq := seq }
    let pts := match s.clusterTask c with
      | some k => (k.logOf c t).map AccLog.point
      | none => []
    let bad := x.contends pts u
    let x := if x.uses.contains u then x else { x with uses := u :: x.uses }
    if bad then { s.setTile c t (x.spoilQueue q s.free) with free := s.free + (x.queue q).length }
    else s.setTile c t x

/-- Several queues used by one step. -/
def State.useQueues (s : State) (c t slot seq : Nat) (qs : List Nat) (push : Bool) : State :=
  qs.foldl (fun s q => s.useQueue c t slot seq q push) s

/-! ### Banks (R127, R128, R245 to R247) -/

/-- The bank of a flat shelf or larder address: its store and its bank there. -/
def bankOf (a : Nat) : Nat × Nat :=
  if a < 2 ^ 40 then
    let o := a % 2 ^ 20
    (a / 2 ^ 20, Nat.xor (Nat.xor (o / 16 % 32) (o / 512 % 32)) (o / 16384 % 32))
  else
    let o := a % 2 ^ 24
    (a / 2 ^ 24 + 2 ^ 24, Nat.xor (Nat.xor (o / 16 % 64) (o / 1024 % 64)) (o / 65536 % 64))

/-- The banks that an access takes as it now stands: those of its read, then those of its write. -/
def Access.banks (a : Access) : List (Nat × Nat) :=
  match (match a.rd with
    | some r => some r
    | none => a.wr) with
  | some (.here x) => (List.range ((a.width + 15) / 16)).map (fun i => bankOf (x + 16 * i))
  | _ => []

/-- Order in which a bank serves its requesters: fill and drain, store, load and side-list reads, counter (R128, R247). -/
def Access.rank (a : Access) : Nat :=
  if a.slot = 3 then (if a.wr.isSome then 0 else 2)
  else if a.slot = 4 then (if a.rd.isSome then 0 else 1)
  else if a.slot = 0 then 3
  else 2

/-- The accesses that stand behind an access at one of its banks. -/
def State.behind (s : State) (c : Nat) (a : Access) : Nat :=
  (s.tilesOf.map (fun t => ((s.tile c t).accs.filter (fun o =>
    a.rank < o.rank && o.banks.any (fun b => a.banks.contains b))).length)).foldl (· + ·) 0

/-- A bank serves an access: each requester of lower order in its cluster that stands open at the same bank is delayed by one
cycle, which counts under cause 19 (R128, R247; log 13). -/
def State.serveBank (s : State) (c : Nat) (a : Access) : State :=
  let n := s.behind c a
  if (s.cluster c).phase.counts && n ≠ 0 then s.stallBy c 19 n else s

end Sys2Proof.Machine
end

