-- ==== Sys2Proof/Machine/Counter.lean ====
section
/-! DEFINITION. The counter slot: its arithmetic, the narrow view, and what the allocator verbs ask (07, R257). -/
namespace Sys2Proof.Machine

/-- CDST of a counter field. -/
def cdst (f : Nat) : Nat := bitsN f 5 3
/-- CSRC of a counter field. -/
def csrc (f : Nat) : Nat := bitsN f 8 3
/-- IMM7 of a counter field. -/
def imm7 (f : Nat) : Nat := bitsN f 17 7
/-- sext(IMM7) as a counter value (R182). -/
def simm7 (f : Nat) : Word := BitVec.ofInt 32 (sextN 7 (imm7 f))

/-- Counters that a counter field reads or writes (R185, R281). -/
def countersOf (f : Nat) : List Nat :=
  let v := bitsN f 0 5
  let m := (usedBits 0 v f).getD 0
  (if Nat.land m 0xE0 = 0xE0 && v ≠ 0x12 then [cdst f] else []) ++ (if Nat.land m 0x700 = 0x700 then [csrc f] else [])

/-- The counter slot waits while its verb touches a counter that awaits a word or an allocator result (R185, R257). -/
def counterWait (t : Tile) (f : Nat) : Wait :=
  if t.ctWait.any (fun w => (countersOf f).contains w.2) then .stall 18 else .go

/-- A counter verb that changes only its tile, where its field acts. -/
def State.counterVerb (s : State) (p : Place) (verb : Nat) (op : Nat → Tile → Tile) : State :=
  s.issueAs p 0 verb counterWait (fun s _ f acts =>
    if acts then s.onTile p.cl.val p.tile.val (op f) else s)

/-- A verb whose result goes to CT[CDST] and is computed from the tile. -/
def State.counterSet (s : State) (p : Place) (verb : Nat) (val : Nat → Tile → Word) : State :=
  s.counterVerb p verb (fun f t => t.setCounter (cdst f) (val f t))

/-- SETI (R182). -/
def execSeti (at_ : Place) (s : State) : Out := .next (s.counterSet at_ 0x01 (fun f _ => simm7 f))

/-- ADDI (R182). -/
def execAddi (at_ : Place) (s : State) : Out :=
  .next (s.counterSet at_ 0x02 (fun f t => t.counter (csrc f) + simm7 f))

/-- SHLI (R182). -/
def execShli (at_ : Place) (s : State) : Out :=
  .next (s.counterSet at_ 0x03 (fun f t => t.counter (csrc f) <<< (imm7 f % 32)))

/-- ORI (R182). -/
def execOri (at_ : Place) (s : State) : Out :=
  .next (s.counterSet at_ 0x04 (fun f t => t.counter (csrc f) ||| BitVec.ofNat 32 (imm7 f)))

/-- MOV of the counter slot (R182). -/
def execCtMov (at_ : Place) (s : State) : Out := .next (s.counterSet at_ 0x05 (fun f t => t.counter (csrc f)))

/-- ADD of the counter slot (R182). -/
def execCtAdd (at_ : Place) (s : State) : Out :=
  .next (s.counterSet at_ 0x06 (fun f t => t.counter (cdst f) + t.counter (csrc f)))

/-- SUB of the counter slot (R182). -/
def execCtSub (at_ : Place) (s : State) : Out :=
  .next (s.counterSet at_ 0x07 (fun f t => t.counter (cdst f) - t.counter (csrc f)))

/-- MUL of the counter slot (R182). -/
def execCtMul (at_ : Place) (s : State) : Out :=
  .next (s.counterSet at_ 0x08 (fun f t => t.counter (cdst f) * t.counter (csrc f)))

/-- AND (R182). -/
def execAnd (at_ : Place) (s : State) : Out :=
  .next (s.counterSet at_ 0x09 (fun f t => t.counter (cdst f) &&& t.counter (csrc f)))

/-- OR (R182). -/
def execOr (at_ : Place) (s : State) : Out :=
  .next (s.counterSet at_ 0x0A (fun f t => t.counter (cdst f) ||| t.counter (csrc f)))

/-- XOR (R182). -/
def execXor (at_ : Place) (s : State) : Out :=
  .next (s.counterSet at_ 0x0B (fun f t => t.counter (cdst f) ^^^ t.counter (csrc f)))

/-- SHL (R182). -/
def execShl (at_ : Place) (s : State) : Out :=
  .next (s.counterSet at_ 0x0C (fun f t => t.counter (cdst f) <<< ((t.counter (csrc f)).toNat % 32)))

/-- SHR (R182). -/
def execShr (at_ : Place) (s : State) : Out :=
  .next (s.counterSet at_ 0x0D (fun f t => t.counter (cdst f) >>> ((t.counter (csrc f)).toNat % 32)))

/-- The identity items of Table 07-2. -/
def State.infoItem (s : State) (c t item : Nat) : Word :=
  match item with
  | 0 => BitVec.ofNat 32 t
  | 1 => BitVec.ofNat 32 (s.cluster c).rel
  | 2 => (match s.clusterTask c with
    | some k => BitVec.ofNat 32 k.total
    | none => 0)
  | 3 => BitVec.ofNat 32 s.tpc
  | _ => (match s.clusterTask c with
    | some k => k.seq
    | none => 0)

/-- INFO (R184). -/
def execInfo (at_ : Place) (s : State) : Out :=
  .next (s.counterSet at_ 0x0E (fun f _ => s.infoItem at_.cl.val at_.tile.val (imm7 f)))

/-- SETAB (R182). -/
def execSetab (at_ : Place) (s : State) : Out :=
  .next (s.counterVerb at_ 0x0F (fun f t => { t with ab := Tbl.set (imm7 f % 4) (t.counter (csrc f)) t.ab }))

/-- GETAB (R182). -/
def execGetab (at_ : Place) (s : State) : Out := .next (s.counterSet at_ 0x10 (fun f t => t.base (imm7 f % 4)))

/-- SETCP (R183). -/
def execSetcp (at_ : Place) (s : State) : Out :=
  .next (s.counterVerb at_ 0x11 (fun f t =>
    let c : Cmp :=
      { ctr := bitsN (imm7 f) 3 3, limit := t.counter (csrc f), rel := imm7 f % 4, signed := bitN (imm7 f) 2 }
    { t with cp := Tbl.set (cdst f % 4) c t.cp }))

/-- SETK (R182). -/
def execSetk (at_ : Place) (s : State) : Out :=
  .next (s.counterVerb at_ 0x12 (fun f t => { t with k := Tbl.set (cdst f) (t.counter (csrc f)) t.k }))

/-- A narrow access as the counter slot opens it (R185). -/
def narrowAccess (id seq : Nat) (rd wr : Option Target) (data : Word) (ctr : Option Nat) : Access :=
  { id := id, slot := 0, seq := seq, xfer := 0, rd := rd, wr := wr, width := 4, data := data.zeroExtend 1024,
    granted := false, have_ := 0, dests := [], ctr := ctr }

/-- One step of the descriptor of a counter field: where it falls, and the tile with its position advanced (R168, R171). -/
def State.narrowStep (s : State) (c t f : Nat) (write : Bool) : Target × State :=
  let n := bitsN f 11 5
  let d := (s.cluster c).desc n
  let x := s.tile c t
  let x := if bitN f 16 then x.grst n else x
  let a := d.addr (x.position n) (x.base d.base)
  (s.target c t d a write, s.setTile c t (x.advance n d))

/-- Whether a target is suppressed. -/
def Target.none? : Target → Bool
  | .suppressed => true
  | _ => false

/-- Open an access: count a suppressed one, note the bytes it touches, charge what it costs. -/
def State.openAccess (s : State) (c t : Nat) (a : Access) (pj : Nat) : State :=
  let bad := (a.rd.map Target.none?).getD false || (a.wr.map Target.none?).getD false
  let s := s.onTile c t (fun x =>
    let x := { x with accs := x.accs ++ [a], nextId := x.nextId + 1 }
    if bad then x.outOfWindow else x)
  if bad then s
  else
    let s := s.chargeCl c pj
    let s := s.note c t a.slot a.seq a.rd a.width false a.dests
    s.note c t a.slot a.seq a.wr a.width true

/-- LDW: one narrow read into a counter; the word comes with LDW_WORD_ARRIVE (R185). -/
def execLdw (at_ : Place) (s : State) : Out :=
  .next (s.issueAs at_ 0 0x13 counterWait (fun s cl f acts =>
    let c := at_.cl.val
    let t := at_.tile.val
    let (tg, s) := s.narrowStep c t f false
    if acts then
      let s := s.openAccess c t (narrowAccess (s.tile c t).nextId cl.seq (some tg) none 0 (some (cdst f))) 1
      s.onTile c t (fun x => { x with ctWait := (cl.seq, cdst f) :: x.ctWait })
    else s))

/-- STW: one narrow write; it is visible with WRITE_VISIBLE (R182). -/
def execStw (at_ : Place) (s : State) : Out :=
  .next (s.issueAs at_ 0 0x14 counterWait (fun s cl f acts =>
    let c := at_.cl.val
    let t := at_.tile.val
    let (tg, s) := s.narrowStep c t f true
    if acts then
      s.openAccess c t (narrowAccess (s.tile c t).nextId cl.seq none (some tg) ((s.tile c t).counter (csrc f)) none) 1
    else s))

/-- The flat range that an access writes. -/
def Access.writes (a : Access) : Option (Nat × Nat) := (a.wr.bind Target.flat).map (fun x => (x, a.width))

/-- The flat range that an access reads. -/
def Access.reads (a : Access) : Option (Nat × Nat) := (a.rd.bind Target.flat).map (fun x => (x, a.width))

/-- Whether two ranges share bytes. -/
def rangesMeet (a b : Option (Nat × Nat)) : Bool :=
  match a, b with
  | some (x, n), some (y, m) => x < y + m && y < x + n
  | _, _ => false

/-- Whether an access must wait for an older one of its slot: it reads what that writes, or writes what that reads or writes
(R130). -/
def Access.after (a old : Access) : Bool :=
  old.slot = a.slot && old.id < a.id &&
    (rangesMeet a.reads old.writes || rangesMeet a.writes old.writes || rangesMeet a.writes old.reads)

/-- Whether nothing older of its slot stands in an access's way (R130). -/
def Tile.clear (t : Tile) (a : Access) : Bool := t.accs.all (fun o => !a.after o)

/-- An access of a tile by its identity. -/
def Tile.acc? (t : Tile) (id : Nat) : Option Access := t.accs.find? (fun a => a.id = id)

/-- A tile without an access. -/
def Tile.endAcc (t : Tile) (id : Nat) : Tile := { t with accs := t.accs.filter (fun a => a.id ≠ id) }

/-- Whether an unordered write of the run touches the bytes that an access reads, on this die's memory or its cellar (R130,
R167). -/
def State.readClash (s : State) (c t : Nat) (a : Access) : Bool :=
  match a.rd.bind Target.flat, (s.cluster c).task with
  | some x, some k => s.conflicts k (s.accLog c t a.slot a.seq x a.width false a.dests)
  | _, _ => false

/-- The bytes that a local read gets: the memory's, zero where it is suppressed, a free value where an unordered write
touches them (R129, R130). -/
def State.readLine (s : State) (c t : Nat) (a : Access) : BitVec 1024 × State :=
  match a.rd.bind Target.flat with
  | some x => if s.readClash c t a then s.freeLine else (BitVec.ofNat 1024 (memNat s.mem x a.width), s)
  | none => (0, s)

/-- The bytes that any read gets once they are there: what a port or another die has answered, or the local bytes; a free value
where an unordered write touches them. -/
def State.readData (s : State) (c t : Nat) (a : Access) : BitVec 1024 × State :=
  match a.rd with
  | some (.cellar _) => if s.readClash c t a then s.freeLine else (a.data, s)
  | some (.remote _ _ _ _ _) => (a.data, s)
  | _ => s.readLine c t a

/-- LDW_WORD_ARRIVE: the word reaches its counter and the counter slot goes on (R185). -/
def execLdwWordArrive (at_ : Place) (s : State) : Out :=
  let c := at_.cl.val
  let t := at_.tile.val
  let x := s.tile c t
  match x.accs.find? (fun a => a.slot = 0 && a.ctr.isSome) with
  | none => .next s
  | some a =>
    if x.clear a then
      let s := s.serveBank c a
      let (d, s) := s.readLine c t a
      .next (s.onTile c t (fun x =>
        { (x.endAcc a.id).setCounter (a.ctr.getD 0) (d.truncate 32) with
          ctWait := x.ctWait.filter (fun w => w.2 ≠ a.ctr.getD 0) }))
    else .next s

/-- NOP of any slot issues with no effect (R149). -/
def execNop (at_ : Place) (slot : Fin 6) (s : State) : Out :=
  .next (s.issueAs at_ slot.val 0
    (fun t _ =>
      match slot.val with
      | 1 => if t.vact.isSome then .busy else .go
      | 2 => if t.blocks.all (fun b => b.k = b.K) then .go else .busy
      | 3 => if t.lact.isSome then .busy else .go
      | 4 => if t.sact.isSome then .busy else .go
      | _ => .go)
    (fun s _ _ _ => s))

/-- An allocator verb's part in one tile: its request joins those of the cluster's other tiles (R257). -/
def State.askAllocator (s : State) (p : Place) (verb : Nat) : State :=
  s.issueAs p 0 verb counterWait (fun s cl f acts =>
    let c := p.cl.val
    let t := p.tile.val
    let s := s.onCluster c (fun x =>
      { x with areq := x.areq ++ [{ seq := cl.seq, tile := t, acts := acts, src := (s.tile c t).counter (csrc f),
                                    imm := imm7 f, verb := verb, cdst := cdst f }] })
    if acts then s.onTile c t (fun x => { x with ctWait := (cl.seq, cdst f) :: x.ctWait }) else s)

end Sys2Proof.Machine
end

