-- ==== Sys2Proof/Machine/Vector.lean ====
section
/-! DEFINITION. The vector slot: what each verb computes of the entries it pops (02, 04, 05, 07). A verb issues by its own
command and then works by SLOT_STEP, one SRC0 entry a step. -/
namespace Sys2Proof.Machine

/-! ### Fields (Tables 06-6 and 07-3) -/

/-- VERB. -/
def vVerb (f : Nat) : Nat := bitsN f 0 7
/-- SRC0. -/
def vSrc0 (f : Nat) : Nat := bitsN f 7 4
/-- SRC1. -/
def vSrc1 (f : Nat) : Nat := bitsN f 11 4
/-- SRC1_K. -/
def vSrc1K (f : Nat) : Bool := bitN f 15
/-- DST. -/
def vDst (f : Nat) : Nat := bitsN f 16 4
/-- TOK. -/
def vTok (f : Nat) : BitVec 4 := BitVec.ofNat 4 (bitsN f 20 4)
/-- TMODE. -/
def vTmode (f : Nat) : Nat := bitsN f 24 2
/-- FMT_IN. -/
def vIn (f : Nat) : Nat := bitsN f 26 3
/-- FMT_OUT. -/
def vOut (f : Nat) : Nat := bitsN f 29 3
/-- SR. -/
def vSr (f : Nat) : Bool := bitN f 32
/-- SRN as a number of bits. -/
def vN (f : Nat) : Nat := srnBits (bitsN f 33 2)
/-- AUX. -/
def vAux (f : Nat) : Nat := bitsN f 38 4
/-- AUX_K. -/
def vAuxK (f : Nat) : Bool := bitN f 42
/-- G. -/
def vG (f : Nat) : Nat := 32 * 2 ^ bitsN f 43 2
/-- AUXEN. -/
def vAuxen (f : Nat) : Bool := bitN f 45
/-- XOP. -/
def vXop (f : Nat) : Nat := bitsN f 46 3
/-- EQ. -/
def vEq (f : Nat) : Nat := bitsN f 49 4
/-- ESC_MAX (R198). -/
def vEscMax (f : Nat) : Nat := 2 ^ (vXop f % 4)
/-- Escapes on. -/
def vEsc (f : Nat) : Bool := bitN f 48

/-! ### Rounding with draws (R53, R188) -/

/-- The rounding of one result of a lane, its generator stepped when SR is 1. -/
def roundLane (sr : Bool) (n fo lane : Nat) (x : NumVal) (g : Tbl Word) : Nat × NanEv × Tbl Word :=
  if sr then
    let (st, r) := draw (Tbl.get 0 g lane).toNat n
    let (code, ev) := convert fo (.sr n r) x
    (code, ev, Tbl.set lane (BitVec.ofNat 32 st) g)
  else
    let (code, ev) := convert fo .rne x
    (code, ev, g)

/-- Results rounded in ascending element order, result i by lane (first + i) mod 16. -/
def roundAll (sr : Bool) (n fo : Nat) : Nat → List NumVal → Tbl Word → List (Nat × NanEv) × Tbl Word
  | _, [], g => ([], g)
  | i, x :: r, g =>
    let (c, ev, g) := roundLane sr n fo (i % 16) x g
    let (rs, g) := roundAll sr n fo (i + 1) r g
    ((c, ev) :: rs, g)

/-! ### Element results (Table 07-4, R189 to R192) -/

/-- Whether the relation of a CMP holds (R191). -/
def cmpHolds (rel : Nat) (a b : NumVal) : Bool :=
  match rel with
  | 0 => NumVal.lt a b
  | 1 => NumVal.lt a b || NumVal.same a b
  | 2 => NumVal.same a b
  | 3 => !NumVal.same a b
  | 4 => NumVal.lt b a || NumVal.same a b
  | _ => NumVal.lt b a

/-- The lesser or greater of two values, NaN if either is (Table 07-4). -/
def minMax (max : Bool) (a b : NumVal) : NumVal :=
  if a.isNan || b.isNan then .nan
  else if max then (if NumVal.lt a b then b else a)
  else if NumVal.lt b a then b else a

/-- An integer verb on INT32 words (R192). -/
def intOp (verb : Nat) (a b : Word) : Word :=
  match verb with
  | 0x20 => a + b
  | 0x21 => a - b
  | 0x22 => a * b
  | 0x23 => a &&& b
  | 0x24 => a ||| b
  | 0x25 => a ^^^ b
  | 0x26 => a <<< (b.toNat % 32)
  | _ => a.sshiftRight (b.toNat % 32)

/-- An operand that a verb widens to F32 (R121, R189). -/
def wideArg (fi : Nat) (k : Option Word) (code : Nat) : NumVal :=
  match k with
  | some w => decode 5 w.toNat
  | none => widenF32 fi code

/-- An operand that a verb takes at its exact value (R189). -/
def exactArg (fi : Nat) (k : Option Word) (code : Nat) : NumVal :=
  match k with
  | some w => decode 5 w.toNat
  | none => decode fi code

/-- An operand of an integer verb, as INT32 (R192). -/
def intArg (fi : Nat) (k : Option Word) (code : Nat) : Word :=
  match k with
  | some w => w
  | none => BitVec.ofInt 32 (sextN (fmtWidth fi) code)

/-- One element's result before rounding to FMT_OUT. -/
def elemResult (verb xop fi : Nat) (k1 k2 : Option Word) (q : NumVal) (a b c : Nat) : NumVal :=
  match verb with
  | 0x01 => decode fi a
  | 0x02 => NumVal.mul (decode fi a) q
  | 0x08 => NumVal.add (wideArg fi none a) (wideArg fi k1 b)
  | 0x09 => NumVal.add (wideArg fi none a) (NumVal.neg (wideArg fi k1 b))
  | 0x0A => NumVal.mul (wideArg fi none a) (wideArg fi k1 b)
  | 0x0B => NumVal.add (NumVal.mul (wideArg fi none a) (wideArg fi k1 b)) (wideArg fi k2 c)
  | 0x0C => minMax false (wideArg fi none a) (wideArg fi k1 b)
  | 0x0D => minMax true (wideArg fi none a) (wideArg fi k1 b)
  | 0x0E => NumVal.abs (wideArg fi none a)
  | 0x0F => NumVal.neg (wideArg fi none a)
  | 0x10 => if cmpHolds xop (exactArg fi none a) (exactArg fi k1 b) then .fin 1 1 else .fin 0 1
  | 0x11 => if (exactArg fi k2 c).isZero then exactArg fi k1 b else decode fi a
  | 0x14 => toF32 (NumVal.div (wideArg fi none a) (wideArg fi k1 b))
  | 0x15 => toF32 (sfuNum xop (wideArg fi none a))
  | _ => .fin (intOp verb (intArg fi none a) (intArg fi k1 b)).toInt 1

/-- Adjacent pairs combined by an operation (R122). -/
def pairUp (op : NumVal → NumVal → NumVal) : List NumVal → List NumVal
  | a :: b :: r => op a b :: pairUp op r
  | l => l

/-- The fixed tree of R122 over 16 lanes. -/
def tree16 (op : NumVal → NumVal → NumVal) (xs : List NumVal) : NumVal :=
  (pairUp op (pairUp op (pairUp op (pairUp op xs)))).headD (.fin 0 1)

/-- What RSUM, RMAX and RMIN make of 16 elements (R193). -/
def reduce16 (verb : Nat) (xs : List NumVal) : NumVal :=
  match verb with
  | 0x18 => tree16 (fun a b => toF32 (NumVal.add a b)) xs
  | 0x19 => tree16 (minMax true) xs
  | _ => tree16 (minMax false) xs

/-- The transpose of a 16 × 16 block (R194). -/
def transpose16 (xs : List Nat) : List Nat := (List.range 256).map (fun i => xs.getD (16 * (i % 16) + i / 16) 0)

/-! ### Forming output entries (R158, R160, R180, R188) -/

/-- Queue an output entry, with its token. -/
def VAct.emit (v : VAct) (q : Nat) (src : BitVec 4) (d : Entry) : VAct :=
  let f := v.fld.toNat
  let tok := tokenOf (vTmode f) (vTok f) (!v.firsts.contains q) src
  { v with out := v.out ++ [(q, { data := d, tok := tok, ready := true, id := 0 })]
           firsts := if v.firsts.contains q then v.firsts else q :: v.firsts }

/-- Emit the full entries of pending codes to DST; `tk` is the token of the entry that supplied the codes just added. -/
def VAct.packD (v : VAct) (per fo : Nat) (tk : BitVec 4) : Nat → VAct
  | 0 => v
  | n + 1 =>
    if per ≤ v.acc.length then
      let v' := v.emit (vDst v.fld.toNat) v.tokD (packElems fo (v.acc.take per))
      VAct.packD { v' with acc := v.acc.drop per, tokD := tk } per fo tk n
    else v

/-- Add result codes for DST. -/
def VAct.putD (v : VAct) (rs : List Nat) (tk : BitVec 4) : VAct :=
  let fo := vOut v.fld.toNat
  let per := 512 / fmtWidth fo
  let v := { v with tokD := if v.acc = [] then tk else v.tokD, acc := v.acc ++ rs }
  v.packD per fo tk v.acc.length

/-- Emit the full entries of pending AUX words. -/
def VAct.packA (v : VAct) (tk : BitVec 4) : Nat → VAct
  | 0 => v
  | n + 1 =>
    if 16 ≤ v.aux.length then
      let v' := v.emit (vAux v.fld.toNat) v.tokA (packWords (v.aux.take 16))
      VAct.packA { v' with aux := v.aux.drop 16, tokA := tk } tk n
    else v

/-- Add 32-bit words for AUX. -/
def VAct.putA (v : VAct) (ws : List Nat) (tk : BitVec 4) : VAct :=
  let v := { v with tokA := if v.aux = [] then tk else v.tokA, aux := v.aux ++ ws }
  v.packA tk v.aux.length

/-- The token of an EQ chunk in TMODE 0b10: that of the first SRC0 entry an escape of the chunk comes from (Table 06-10). A
chunk without an escape comes from no entry and takes that of the issue's first (DESIGN CHOICE, log 48). -/
def VAct.chunkTok (v : VAct) (toks : List (Option (BitVec 4))) : BitVec 4 := (toks.filterMap id).headD v.tok0

/-- Emit the full 32-entry chunks of a side list to EQ (R198). `used` counts the chunks emitted. -/
def VAct.packE (v : VAct) : Nat → VAct
  | 0 => v
  | n + 1 =>
    if 32 ≤ v.side.length then
      let v' := v.emit (vEq v.fld.toNat) (v.chunkTok (v.sideTok.take 32)) (packElems 0 (v.side.take 32))
      VAct.packE { v' with side := v.side.drop 32, sideTok := v.sideTok.drop 32, used := v.used + 1 } n
    else v

/-! ### Groups -/

/-- Amax words of the full groups gathered so far (R61); `grp` keeps the codes of the open group. -/
def VAct.gather (v : VAct) (g : Nat) (tk : BitVec 4) : Nat → VAct
  | 0 => v
  | n + 1 =>
    if g ≤ v.grp.length then
      let f := v.fld.toNat
      let w := amaxWord ((v.grp.take g).map (decode (vIn f)))
      VAct.gather { v.putA [w] v.tokG with grp := v.grp.drop g, tokG := tk } g tk n
    else v

/-- How many listed values exceed a magnitude, or equal it at a lower place (R107). -/
def rankBefore (xs : List (Nat × NumVal)) (i : Nat) (v : NumVal) : Nat :=
  (xs.filter (fun p => NumVal.lt (NumVal.abs v) (NumVal.abs p.2) || (NumVal.same (NumVal.abs v) (NumVal.abs p.2) && p.1 < i))).length

/-- Whether an element of a B4 conversion is an escape candidate (R106). -/
def escCandidate (x q : NumVal) : Bool :=
  !x.special && !q.special && !NumVal.lt (NumVal.abs (NumVal.mul x q)) (.fin 2 1)

/-- One CVTB4 group (R106 to R109, R197, R198): codes with their events, the escapes' H16 entries and places in order, the
number of saturated candidates. -/
def b4Group (f first : Nat) (q : NumVal) (codes : List Nat) (gen : Tbl Word) :
    List (Nat × NanEv) × List Nat × List Nat × Nat × Tbl Word :=
  let xs := codes.map (decode (vIn f))
  let idx := xs.zip (List.range xs.length)
  let cands := if vEsc f then (idx.filter (fun p => escCandidate p.1 q)).map (fun p => (p.2, NumVal.mul p.1 q)) else []
  let escs := (cands.filter (fun p => rankBefore cands p.1 p.2 < vEscMax f)).map Prod.fst
  let (rs, sides, gen) := idx.foldl (fun (acc : List (Nat × NanEv) × List Nat × Tbl Word) p =>
    let (rs, sides, gen) := acc
    let lane := (first + p.2) % 16
    if escs.contains p.2 then
      let (c, _, gen) := roundLane (vSr f) (vN f) 0 lane p.1 gen
      (rs ++ [(0xF, NanEv.none)], sides ++ [c], gen)
    else
      let (c, ev, gen) := roundLane (vSr f) (vN f) 4 lane (NumVal.mul p.1 q) gen
      (rs ++ [(c, ev)], sides, gen)) ([], [], gen)
  (rs, sides, escs, cands.length - escs.length, gen)

/-- Number of chunk entries of a side-list stream (R198). -/
def chunkCount (b m escMax : Nat) : Nat := (b % 32 + m * escMax + 31) / 32

/-! ### One step -/

/-- What a step gives: the verb's state, the generators, events (element, event), saturated candidates, inconsistency,
free values drawn. -/
structure Fed where
  v : VAct
  gen : Tbl Word
  evs : List (Nat × NanEv)
  sat : Nat
  bad : Bool
  free : Nat

/-- Events of results, numbered from an element index (R98). -/
def numberEvs (first : Nat) (rs : List (Nat × NanEv)) : List (Nat × NanEv) :=
  (rs.zip (List.range rs.length)).map (fun p => (first + p.2, p.1.2))

/-- A pair's d and q words, by group (R195). -/
def VAct.pair (v : VAct) (i : Nat) : Nat × Nat := (v.pairs.getD (2 * i) 0, v.pairs.getD (2 * i + 1) 0)

/-- Elementwise verbs (R189 to R192, R196): one result per element, and amax words where AUXEN is 1. -/
def VAct.feedElems (v : VAct) (gen : Tbl Word) (a : QEntry) (bs cs : List Nat) (free : Nat) : Fed :=
  let f := v.fld.toNat
  let fi := vIn f
  let as_ := entryElems fi a.data
  let k1 := if vSrc1K f then some v.konst1 else none
  let k2 := if vAuxK f then some v.konst2 else none
  let q (i : Nat) : NumVal :=
    if vVerb f ≠ 2 then .fin 1 1
    else if vXop f % 2 = 0 then decode 5 v.konst1.toNat
    else decode 5 (v.pair ((v.elem + i) / vG f - v.elem / vG f)).2
  let xs := (as_.zip (List.range as_.length)).map (fun p =>
    elemResult (vVerb f) (vXop f) fi k1 k2 (q p.2) p.1 (bs.getD p.2 0) (cs.getD p.2 0))
  let (rs, gen) := roundAll (vSr f) (vN f) (vOut f) v.elem xs gen
  let used := (v.elem + as_.length) / vG f - v.elem / vG f
  let v' := v.putD (rs.map Prod.fst) a.tok
  let v' := if (vVerb f = 1 || vVerb f = 2) && vAuxen f then
      let v' := { v' with tokG := if v'.grp = [] then a.tok else v'.tokG, grp := v'.grp ++ as_ }
      v'.gather (vG f) a.tok v'.grp.length
    else v'
  { v := { v' with elem := v.elem + as_.length, pairs := v.pairs.drop (2 * used) }
    gen := gen, evs := numberEvs v.elem rs, sat := 0, bad := false, free := free }

/-- RSUM, RMAX and RMIN (R193). -/
def VAct.feedReduce (v : VAct) (gen : Tbl Word) (a : QEntry) (free : Nat) : Fed :=
  let f := v.fld.toNat
  let as_ := (entryElems (vIn f) a.data).map (widenF32 (vIn f))
  let xs := (chunks 16 8 as_).map (reduce16 (vVerb f))
  let r0 := v.elem / 16
  let (rs, gen) := roundAll (vSr f) (vN f) (vOut f) r0 xs gen
  { v := { v.putD (rs.map Prod.fst) a.tok with elem := v.elem + as_.length }
    gen := gen, evs := numberEvs r0 rs, sat := 0, bad := false, free := free }

/-- One full block of TRN; `grp` holds its 256 codes (R194). -/
def VAct.trnBlock (v : VAct) (gen : Tbl Word) (first : Nat) : VAct × Tbl Word × List (Nat × NanEv) :=
  let f := v.fld.toNat
  let xs := (transpose16 (v.grp.take 256)).map (decode (vIn f))
  let (rs, gen) := roundAll (vSr f) (vN f) (vOut f) first xs gen
  ({ v.putD (rs.map Prod.fst) v.tokG with grp := v.grp.drop 256 }, gen, numberEvs first rs)

/-- TRN (R194). `used` counts the blocks done. -/
def VAct.feedTrn (v : VAct) (gen : Tbl Word) (a : QEntry) (free : Nat) : Fed :=
  let f := v.fld.toNat
  let as_ := entryElems (vIn f) a.data
  let v := { v with tokG := if v.grp = [] then a.tok else v.tokG, grp := v.grp ++ as_, elem := v.elem + as_.length }
  if 256 ≤ v.grp.length then
    let (v', gen, evs) := v.trnBlock gen (256 * v.used)
    { v := { v' with used := v.used + 1, tokG := a.tok }, gen := gen, evs := evs, sat := 0, bad := false, free := free }
  else { v := v, gen := gen, evs := [], sat := 0, bad := false, free := free }

/-- SCALE (R195): sixteen amax words give sixteen pairs. -/
def VAct.feedScale (v : VAct) (gen : Tbl Word) (a : QEntry) (free : Nat) : Fed :=
  let f := v.fld.toNat
  let ps := (entryElems 5 a.data).map (fun w => scalePair w (vXop f % 4) (vEsc f) (vOut f))
  let ws := ps.flatMap (fun p => [p.1, p.2])
  let evs := numberEvs (2 * v.elem) (ws.map (fun w => (w, if (decode 5 w).isNan then NanEv.written else NanEv.none)))
  let v' := (ws.take 16 :: [ws.drop 16]).foldl (fun v w => v.emit (vDst f) a.tok (packWords w)) v
  let v' := if vAuxen f then v'.emit (vAux f) a.tok (packWords (ps.map Prod.fst)) else v'
  { v := { v' with elem := v.elem + 16 }, gen := gen, evs := evs, sat := 0, bad := false, free := free }

/-- What the groups of one CVTB4 step give: the verb, the generators, events, saturated candidates, the next free value. -/
structure B4Step where
  v : VAct
  gen : Tbl Word
  evs : List (Nat × NanEv)
  sat : Nat
  free : Nat

/-- The next group of a CVTB4, of the codes in `grp`; `used` counts chunks, `zeros` escapes written, `popped` groups done. With
escapes on, FIRST is the low 28 bits of the base index plus the escapes before: an index of 2^28 or more does not fit the
field (DESIGN CHOICE, log 48). With escapes off no base index is named (R197) and no value of FIRST is stated: it is a free
value (log 48). -/
def VAct.b4Step (v : VAct) (gen : Tbl Word) (g free : Nat) : B4Step :=
  let f := v.fld.toNat
  let codes := v.grp.take g
  let place := v.popped * vG f
  let (d, qw) := v.pair 0
  let (rs, sides, escs, sat, gen) := b4Group f place (decode 5 qw) codes gen
  let first := if vEsc f then v.base.toNat + v.zeros else (Config.freeWord free).toNat
  let v := v.putD (rs.map Prod.fst) v.tokG
  let v := v.putA [d, first % 2 ^ 28 + 2 ^ 28 * sides.length] v.tokG
  let v := { v with grp := v.grp.drop g, grpTok := v.grpTok.drop g, pairs := v.pairs.drop 2, popped := v.popped + 1,
                    zeros := v.zeros + sides.length, side := v.side ++ sides,
                    sideTok := v.sideTok ++ escs.map (fun i => v.grpTok[i]?) }
  let v := if vEsc f then v.packE v.side.length else v
  { v := v, gen := gen, evs := numberEvs place rs, sat := sat, free := if vEsc f then free else free + 1 }

/-- All the full groups of a CVTB4 step. -/
def VAct.b4Steps (v : VAct) (gen : Tbl Word) (tk : BitVec 4) (free : Nat) : Nat → B4Step
  | 0 => { v := v, gen := gen, evs := [], sat := 0, free := free }
  | n + 1 =>
    if vG v.fld.toNat ≤ v.grp.length then
      let a := v.b4Step gen (vG v.fld.toNat) free
      let b := VAct.b4Steps { a.v with tokG := tk } a.gen tk a.free n
      { b with evs := a.evs ++ b.evs, sat := a.sat + b.sat }
    else { v := v, gen := gen, evs := [], sat := 0, free := free }

/-- CVTB4 (R197, R198). -/
def VAct.feedB4 (v : VAct) (gen : Tbl Word) (a : QEntry) (free : Nat) : Fed :=
  let f := v.fld.toNat
  let as_ := entryElems (vIn f) a.data
  let v := { v with tokG := if v.grp = [] then a.tok else v.tokG, grp := v.grp ++ as_,
                    grpTok := v.grpTok ++ as_.map (fun _ => a.tok), elem := v.elem + as_.length }
  let r := v.b4Steps gen a.tok free (v.grp.length / vG f + 1)
  { v := r.v, gen := r.gen, evs := r.evs, sat := r.sat, bad := false, free := r.free }

/-- Place of an escape's entry among the chunks that begin with the one of the base index, if it lies in the first n of them. -/
def escPlace (base n i : Nat) : Option Nat :=
  let lo := 32 * (base / 32)
  if lo ≤ i ∧ i < lo + 32 * n then some (i - lo) else none

/-- Indices of the escapes of a group (R110): FIRST and on, in element order. -/
def escIndices (rec : Nat) (codes : List Nat) : List Nat :=
  (List.range (codes.filter (fun c => c = 0xF)).length).map (fun m => bitsN rec 32 28 + m)

/-- One DECB4 group (R200, R111): the values to round, or whether the group is inconsistent. `rec` is its record; `side` holds
the entries of the chunks popped, among them every chunk of the issue that the group names. -/
def decGroup (f base : Nat) (rec : Nat) (side : List Nat) (codes : List Nat) : List NumVal × Bool :=
  let scale := decode 5 (bitsN rec 0 32)
  let first := bitsN rec 32 28
  let count := bitsN rec 60 4
  let n := (codes.filter (fun c => c = 0xF)).length
  let bad := if vEsc f then n ≠ count || 8 < count else n ≠ 0 || count ≠ 0
  let vals := (codes.foldl (fun (acc : List NumVal × Nat) c =>
    if c = 0xF then
      (acc.1 ++ [match escPlace base (side.length / 32) (first + acc.2) with
        | some i => decode 0 (side.getD i 0)
        | none => .fin 0 1], acc.2 + 1)
    else (acc.1 ++ [NumVal.mul (b4Level c) scale], acc.2)) ([], 0)).1
  (vals, bad)

/-- DECB4 (R200): `pairs` holds records as words, `side` the entries of the chunks popped so far. The undefined values of an
inconsistent group are free values, and raise no NaN event, also where the free code is a NaN's: R177 lets NAN_TRAP depend on
them and does not say that it must (DESIGN CHOICE, log 48). -/
def VAct.feedDec (v : VAct) (gen : Tbl Word) (a : QEntry) (free : Nat) : Fed :=
  let f := v.fld.toNat
  let groups := chunks (vG f) 4 (entryElems 4 a.data)
  let r := (groups.zip (List.range groups.length)).foldl
    (fun (acc : List (Nat × NanEv) × Tbl Word × Bool × Nat) p =>
      let (rs, gen, bad, free) := acc
      let (lo, hi) := v.pair p.2
      let (xs, b) := decGroup f v.base.toNat (lo + 2 ^ 32 * hi) v.side p.1
      let (ys, gen) := roundAll (vSr f) (vN f) (vOut f) (v.elem + p.2 * vG f) xs gen
      if b then
        (rs ++ (List.range ys.length).map (fun i =>
          ((Config.freeWord (free + i)).toNat % 2 ^ fmtWidth (vOut f), NanEv.none)), gen, true, free + ys.length)
      else (rs ++ ys, gen, bad, free)) ([], gen, false, free)
  { v := { v.putD (r.1.map Prod.fst) a.tok with elem := v.elem + 128, pairs := v.pairs.drop (2 * groups.length) }
    gen := r.2.1, evs := numberEvs v.elem r.1, sat := 0, bad := r.2.2.1, free := r.2.2.2 }

/-- What a verb makes of the entries one step pops. -/
def VAct.feed (v : VAct) (gen : Tbl Word) (a : QEntry) (bs cs : List Nat) (free : Nat) : Fed :=
  match vVerb v.fld.toNat with
  | 0x03 => v.feedB4 gen a free
  | 0x04 => v.feedDec gen a free
  | 0x18 => v.feedReduce gen a free
  | 0x19 => v.feedReduce gen a free
  | 0x1A => v.feedReduce gen a free
  | 0x1C => v.feedScale gen a free
  | 0x1D => v.feedTrn gen a free
  | _ => v.feedElems gen a bs cs free

/-- The end of a verb's stream: a short group, a part-filled block, and the last entries (R61, R188, R194, R197). -/
def VAct.finish (x : Fed) : Fed :=
  let v := x.v
  let f := v.fld.toNat
  let g := vVerb f
  let x :=
    if g = 0x1D && v.grp ≠ [] then
      let z := zeroCode (vIn f)
      let (v', gen, evs) := { v with grp := v.grp ++ List.replicate (256 - v.grp.length) z }.trnBlock x.gen (256 * v.used)
      { x with v := v', gen := gen, evs := x.evs ++ evs }
    else if g = 0x03 && v.grp ≠ [] then
      let r := v.b4Step x.gen v.grp.length x.free
      { x with v := r.v, gen := r.gen, evs := x.evs ++ r.evs, sat := x.sat + r.sat, free := r.free }
    else if (g = 1 || g = 2) && vAuxen f && v.grp ≠ [] then
      { x with v := { v.putA [amaxWord (v.grp.map (decode (vIn f)))] v.tokG with grp := [] } }
    else x
  let v := x.v
  let v := if v.acc ≠ [] then { v.emit (vDst f) v.tokD (packElems (vOut f) v.acc) with acc := [] } else v
  let v := if v.aux ≠ [] then { v.emit (vAux f) v.tokA (packWords v.aux) with aux := [] } else v
  let v := if g = 0x03 && vEsc f then
      let total := chunkCount v.base.toNat v.popped (vEscMax f)
      (List.range (total - v.used)).foldl (fun v i =>
        v.emit (vEq f) (v.chunkTok (if i = 0 then v.sideTok else [])) (packElems 0 (if i = 0 then v.side else []))) v
    else v
  { x with v := v }

/-! ### Sources of a step (R156, R157, R196 to R200) -/

/-- Queue ends of the element sources, each once (R157). -/
def elemSources (f : Nat) : List Nat :=
  let g := vVerb f
  let two := g = 8 || g = 9 || g = 0xA || g = 0xB || g = 0xC || g = 0xD || g = 0x10 || g = 0x11 || g = 0x14 || (0x20 ≤ g && g ≤ 0x27)
  let s1 := if two && !vSrc1K f then [vSrc1 f] else []
  let s2 := if (g = 0xB || g = 0x11) && !vAuxK f then [vAux f] else []
  (vSrc0 f :: (s1 ++ s2)).eraseDups

/-- Elements of one SRC0 entry. -/
def vPer (f : Nat) : Nat := if vVerb f = 0x1C then 16 else 512 / fmtWidth (vIn f)

/-- Groups that the elements before `e` have begun. -/
def groupsBegun (g e : Nat) : Nat := (e + g - 1) / g

/-- Entries of pairs or records that the elements up to `e` need beyond those of the elements so far: eight groups to one. -/
def VAct.groupPops (v : VAct) (e : Nat) : Nat :=
  let g := vG v.fld.toNat
  (groupsBegun g e + 7) / 8 - (groupsBegun g v.elem + 7) / 8

/-- Chunks that a whole DECB4 issue pops (R198, R200): m is its number of groups. -/
def VAct.allChunks (v : VAct) : Nat :=
  let f := v.fld.toNat
  chunkCount v.base.toNat (groupsBegun (vG f) (v.count * vPer f)) (vEscMax f)

/-- Chunks of EQ that must have been popped when a DECB4 step has: those of R198 for the groups begun, and further ones of the
issue that an escape of the step names, as the records at hand say. -/
def VAct.chunksNeeded (v : VAct) (recs : List Nat) (codes : List Nat) : Nat :=
  let f := v.fld.toNat
  let groups := chunks (vG f) 4 codes
  let named := (groups.zip (List.range groups.length)).flatMap (fun p =>
    (escIndices (recs.getD (2 * p.2) 0 + 2 ^ 32 * recs.getD (2 * p.2 + 1) 0) p.1).filterMap (fun i =>
      (escPlace v.base.toNat v.allChunks i).map (fun k => k / 32 + 1)))
  named.foldl Nat.max (chunkCount v.base.toNat (groupsBegun (vG f) (v.elem + vPer f)) (vEscMax f))

/-- Words of popped pair or record entries. -/
def wordsOf (es : List QEntry) : List Nat := es.flatMap (fun e => entryElems 5 e.data)

/-- Pops of the next step besides its element sources: pairs (SRC1), records (AUX), and chunks (EQ), marked so. -/
def VAct.extraPops (v : VAct) (x : Tile) : List (Nat × Nat × Bool) :=
  let f := v.fld.toNat
  let n := v.groupPops (v.elem + vPer f)
  match vVerb f with
  | 0x02 => if vXop f % 2 = 1 then [(vSrc1 f, n, false)] else []
  | 0x03 => [(vSrc1 f, n, false)]
  | 0x04 =>
    let recs := v.pairs ++ wordsOf ((x.queue (vAux f)).take n)
    let codes := ((x.queue (vSrc0 f)).head?.map (fun e => entryElems 4 e.data)).getD []
    (vAux f, n, false) :: (if vEsc f then [(vEq f, v.chunksNeeded recs codes - v.used, true)] else [])
  | _ => []

/-- Whether the first n entries of a queue can be popped. -/
def Tile.canPop (t : Tile) (q n : Nat) : Bool :=
  let es := (t.queue q).take n
  es.length = n && es.all (fun e => e.ready)

/-- Total pops of a step by queue. -/
def VAct.pops (v : VAct) (x : Tile) : List (Nat × Nat) :=
  let l := (elemSources v.fld.toNat).map (fun q => (q, 1)) ++ (v.extraPops x).map (fun e => (e.1, e.2.1))
  (l.map Prod.fst).eraseDups.map (fun q => (q, (l.filter (fun p => p.1 = q)).foldl (fun n p => n + p.2) 0))

/-- Entries popped from one queue: the n at its head. -/
def Tile.popN (t : Tile) (q n : Nat) : List QEntry × Tile :=
  ((t.queue q).take n, t.setQueue q ((t.queue q).drop n))

/-! ### Pushing (R133, R158) -/

/-- Push the waiting entries that have room, in order for each queue; what is left waits. -/
def pushOut : List (Nat × QEntry) → List Nat → Tile → List (Nat × QEntry) × Tile
  | [], _, t => ([], t)
  | (q, e) :: r, full, t =>
    if full.contains q || t.room q = 0 then
      let (l, t) := pushOut r (q :: full) t
      ((q, e) :: l, t)
    else pushOut r full (t.setQueue q (t.queue q ++ [e]))

/-- Blank an entry of a field whose condition does not hold: the zero code of its format (R175); SCALE pushes F32 words. -/
def blank (f : Nat) (p : Nat × QEntry) : Nat × QEntry :=
  (p.1, { p.2 with data := if p.1 = vDst f && vVerb f ≠ 0x1C then packElems (vOut f) [] else 0 })

/-- A verb whose stream has ended and whose pushes are done leaves its slot. -/
def Tile.afterPush (t : Tile) (v : VAct) (out : List (Nat × QEntry)) : Tile :=
  if out = [] && v.left = 0 && v.zeros = 0 then { t with vact := none } else { t with vact := some { v with out := out } }

/-- NaN records of a step (Table 03-4). -/
def nanRecs (rel cl seq slot tile addr verb : Nat) (evs : List (Nat × NanEv)) : List NanRec :=
  evs.filterMap (fun p => p.2.kind.map (fun k =>
    { rel := rel, cl := cl, seq := seq, slot := slot, tile := tile, elem := p.1, clause := addr, verb := verb, kind := k }))

/-- ACLK cycles that one SRC0 entry holds the slot (Table 07-4). -/
def vCycles (f : Nat) : Nat :=
  let per := if vVerb f = 0x40 then 1 else vPer f / 16
  if vVerb f = 0x14 then 4 * per
  else if vVerb f = 0x15 then (if vXop f < 3 then 4 else 8) * per
  else per

/-- Whether a tile's EXT has an entry for the extension port. -/
def Tile.extOffers (t : Tile) : Bool :=
  match t.vact with
  | none => false
  | some v => vVerb v.fld.toNat = 0x40 && v.acts && v.left ≠ 0 && (t.head (vSrc0 v.fld.toNat)).isSome

/-- The tile whose entry the extension port takes next: round-robin in logical order after the one served last (R354). -/
def State.extNext (s : State) (c : Nat) : Option Nat :=
  ((List.range 16).map (fun i => ((s.cluster c).extLast + 1 + i) % 16)).find? (fun t => t < s.tpc && (s.tile c t).extOffers)

/-- Whether a tile's entry can pass to the extension port now: the port offers no other beat, and it is the tile's turn (R352,
R354). -/
def State.extPasses (s : State) (c t : Nat) : Bool := (s.cluster c).extIn.isEmpty && s.extNext c = some t

/-- One step of EXT: an entry goes to the extension port (R212). -/
def State.extStep (s : State) (c t : Nat) (v : VAct) : State :=
  let x := s.tile c t
  let f := v.fld.toNat
  if v.left = 0 then
    if x.room 15 = 0 then s.stall c 16
    else
      let tok := tokenOf (vTmode f) (vTok f) v.flagged v.tok0
      let v := { v with zeros := v.zeros - 1, flagged := false }
      s.setTile c t ((x.push 15 0 tok).afterPush v [])
  else
    match x.head (vSrc0 f) with
    | none => s.stall c (vSrc0 f)
    | some a =>
      if v.acts && !s.extPasses c t then s.stall c 16
      else
        let s := s.useQueue c t 1 v.seq (vSrc0 f) false
        let x := s.tile c t
        let a := (x.head (vSrc0 f)).getD a
        let first := v.popped = 0
        let v := { v with left := v.left - 1, popped := v.popped + 1, tok0 := if first then a.tok else v.tok0 }
        let x := x.pop (vSrc0 f)
        let x := if first && v.acts then
            { x with extOwed := replaceIf (fun e => e.seq = v.seq) (fun e => { e with srcTok := a.tok }) x.extOwed }
          else x
        let s := s.setTile c t (x.afterPush v [])
        let s := s.chargeCl c 12
        if v.acts then
          s.onCluster c (fun y =>
            { y with extUsed := true
                     extLast := t
                     extIn := y.extIn ++ [{ data := a.data, fn := 8 * vEq f + vXop f, fmt := vIn f + 8 * vOut f, tile := t,
                                            seq := (x.extCount - 1) % 65536, last := decide (v.left = 0) }] })
        else s

/-- Whether a CVTB4 or DECB4 names one queue as both AUX and EQ, or names either beside DST or SRC0: the flows interleave and
the values become undefined (text under R200). -/
def flowsMix (f : Nat) : Bool :=
  let side := if vEsc f then [vAux f, vEq f] else [vAux f]
  (vVerb f = 3 || vVerb f = 4) &&
    ((vEsc f && vAux f = vEq f) || side.contains (vDst f) || side.contains (vSrc0 f))

/-- The entries a step pushes, with undefined data where the verb's flows mix. -/
def VAct.mixed (v : VAct) (free : Nat) : VAct × Nat :=
  if flowsMix v.fld.toNat then
    ({ v with out := (v.out.zip (List.range v.out.length)).map (fun p =>
        (p.1.1, { p.1.2 with data := Config.freeEntry (free + p.2) })) }, free + v.out.length)
  else (v, free)

/-- One step of the vector slot's verb: first the waiting pushes, then one SRC0 entry (R156 to R158). -/
def State.vectorStep (s : State) (c t : Nat) (v : VAct) : State :=
  let x := s.tile c t
  let f := v.fld.toNat
  if v.out ≠ [] then
    let (out, x') := pushOut v.out [] x
    if out.length = v.out.length then s.stall c 16
    else (s.setTile c t (x'.afterPush v out)).useQueues c t 1 v.seq ((v.out.map Prod.fst).eraseDups) true
  else if vVerb f = 0x40 then s.extStep c t v
  else
    match minOf (((v.pops x).filter (fun p => !x.canPop p.1 p.2)).map Prod.fst) with
    | some q => s.stall c q
    | none =>
      let s := s.useQueues c t 1 v.seq ((v.pops x).map Prod.fst) false
      let x := s.tile c t
      match x.head (vSrc0 f) with
      | none => s
      | some a =>
        let bs := (x.head (vSrc1 f)).map (fun e => entryElems (vIn f) e.data)
        let cs := (x.head (vAux f)).map (fun e => entryElems (vIn f) e.data)
        let extra := v.extraPops x
        let x := (elemSources f).foldl (fun x q => x.pop q) x
        let (v, x) := extra.foldl (fun (p : VAct × Tile) e =>
          let (es, x) := p.2.popN e.1 e.2.1
          if e.2.2 then
            ({ p.1 with side := p.1.side ++ es.flatMap (fun y => entryElems 0 y.data), used := p.1.used + es.length }, x)
          else ({ p.1 with pairs := p.1.pairs ++ wordsOf es }, x)) (v, x)
        let v := { v with tok0 := if v.elem = 0 then a.tok else v.tok0, left := v.left - 1 }
        let r := v.feed x.vgen a (bs.getD []) (cs.getD []) s.free
        let r := if r.v.left = 0 then VAct.finish r else r
        let (v, free) := VAct.mixed { r.v with zeros := if r.v.left = 0 then 0 else r.v.zeros } r.free
        let v := if v.acts then v else { v with out := v.out.map (blank f) }
        let newBad := r.bad && !v.flagged
        let v := { v with flagged := v.flagged || r.bad }
        let (out, x) := pushOut v.out [] { x with vgen := r.gen }
        let s := { s with free := free }.setTile c t (x.afterPush v out)
        let s := s.useQueues c t 1 v.seq ((v.out.map Prod.fst).eraseDups) true
        let s := s.chargeCl c (12 * vCycles f)
        let s := if newBad then
            let s := s.onTile c t (fun x => x.illegal 7 1 v.addr)
            match (s.cluster c).task with
            | none => s
            | some k => s.onTask k (fun y => { y with illegal := satTo 65535 (y.illegal + 1) })
          else s
        if v.acts then
          let s := match s.clusterCtx c with
            | none => s
            | some k => s.onCtx k (fun y => { y with escSat := satTo (2 ^ 32 - 1) (y.escSat + r.sat) })
          s.nanEvents c (nanRecs (s.cluster c).rel c v.seq 1 t v.addr (vVerb f) r.evs)
        else s

/-! ### Issue -/

/-- The vector slot is busy while an earlier verb steps. -/
def vectorWait (t : Tile) (_ : Nat) : Wait := if t.vact.isSome then .busy else .go

/-- A vector verb as it begins: what it reads once at issue (R181). -/
def VAct.begin (x : Tile) (cl : Clause) (f : Nat) (acts : Bool) : VAct :=
  let base := x.counter (bitsN f 53 3)
  { fld := BitVec.ofNat 56 f
    seq := cl.seq
    addr := cl.addr
    acts := acts
    left := (x.counter (bitsN f 35 3)).toNat
    popped := 0
    konst1 := x.konst (vSrc1 f % 8)
    konst2 := x.konst (vAux f % 8)
    base := base
    elem := 0
    acc := []
    aux := []
    grp := []
    pairs := []
    side := if vVerb f = 3 && vEsc f then List.replicate (base.toNat % 32) 0 else []
    count := (x.counter (bitsN f 35 3)).toNat
    grpTok := []
    sideTok := if vVerb f = 3 && vEsc f then List.replicate (base.toNat % 32) none else []
    used := 0
    out := []
    firsts := []
    tokD := 0
    tokA := 0
    tokG := 0
    tok0 := 0
    zeros := 0
    flagged := false }

/-- Issue of a vector verb: with a count of 0 it has no steps (R181). -/
def State.vectorVerb (s : State) (p : Place) (verb : Nat) : State :=
  s.issueAs p 1 verb vectorWait (fun s cl f acts =>
    s.onTile p.cl.val p.tile.val (fun x =>
      let v := VAct.begin x cl f acts
      if v.left = 0 then x else { x with vact := some v }))

/-- MOV (R189, R196). -/
def execMov (at_ : Place) (s : State) : Out := .next (s.vectorVerb at_ 0x01)
/-- CVT (R196). -/
def execCvt (at_ : Place) (s : State) : Out := .next (s.vectorVerb at_ 0x02)
/-- CVTB4 (R197). -/
def execCvtb4 (at_ : Place) (s : State) : Out := .next (s.vectorVerb at_ 0x03)
/-- DECB4 (R200). -/
def execDecb4 (at_ : Place) (s : State) : Out := .next (s.vectorVerb at_ 0x04)
/-- ADD (R189). -/
def execAdd (at_ : Place) (s : State) : Out := .next (s.vectorVerb at_ 0x08)
/-- SUB (R189). -/
def execSub (at_ : Place) (s : State) : Out := .next (s.vectorVerb at_ 0x09)
/-- MUL (R189). -/
def execMul (at_ : Place) (s : State) : Out := .next (s.vectorVerb at_ 0x0A)
/-- FMA (R189). -/
def execFma (at_ : Place) (s : State) : Out := .next (s.vectorVerb at_ 0x0B)
/-- MIN (R189). -/
def execMin (at_ : Place) (s : State) : Out := .next (s.vectorVerb at_ 0x0C)
/-- MAX (R189). -/
def execMax (at_ : Place) (s : State) : Out := .next (s.vectorVerb at_ 0x0D)
/-- ABS (R189). -/
def execAbs (at_ : Place) (s : State) : Out := .next (s.vectorVerb at_ 0x0E)
/-- NEG (R189). -/
def execNeg (at_ : Place) (s : State) : Out := .next (s.vectorVerb at_ 0x0F)
/-- CMP (R191). -/
def execCmp (at_ : Place) (s : State) : Out := .next (s.vectorVerb at_ 0x10)
/-- SEL (R191). -/
def execSel (at_ : Place) (s : State) : Out := .next (s.vectorVerb at_ 0x11)
/-- DIV (R189). -/
def execDiv (at_ : Place) (s : State) : Out := .next (s.vectorVerb at_ 0x14)
/-- SFU (R190). -/
def execSfu (at_ : Place) (s : State) : Out := .next (s.vectorVerb at_ 0x15)
/-- RSUM (R193). -/
def execRsum (at_ : Place) (s : State) : Out := .next (s.vectorVerb at_ 0x18)
/-- RMAX (R193). -/
def execRmax (at_ : Place) (s : State) : Out := .next (s.vectorVerb at_ 0x19)
/-- RMIN (R193). -/
def execRmin (at_ : Place) (s : State) : Out := .next (s.vectorVerb at_ 0x1A)
/-- SCALE (R195). -/
def execScale (at_ : Place) (s : State) : Out := .next (s.vectorVerb at_ 0x1C)
/-- TRN (R194). -/
def execTrn (at_ : Place) (s : State) : Out := .next (s.vectorVerb at_ 0x1D)
/-- IADD (R192). -/
def execIadd (at_ : Place) (s : State) : Out := .next (s.vectorVerb at_ 0x20)
/-- ISUB (R192). -/
def execIsub (at_ : Place) (s : State) : Out := .next (s.vectorVerb at_ 0x21)
/-- IMUL (R192). -/
def execImul (at_ : Place) (s : State) : Out := .next (s.vectorVerb at_ 0x22)
/-- IAND (R192). -/
def execIand (at_ : Place) (s : State) : Out := .next (s.vectorVerb at_ 0x23)
/-- IOR (R192). -/
def execIor (at_ : Place) (s : State) : Out := .next (s.vectorVerb at_ 0x24)
/-- IXOR (R192). -/
def execIxor (at_ : Place) (s : State) : Out := .next (s.vectorVerb at_ 0x25)
/-- ISHL (R192). -/
def execIshl (at_ : Place) (s : State) : Out := .next (s.vectorVerb at_ 0x26)
/-- ISHR (R192). -/
def execIshr (at_ : Place) (s : State) : Out := .next (s.vectorVerb at_ 0x27)

/-- EXT: the issue is counted, also with a count of 0 or without acting, it is registered as owed its results, and its entries
go out by SLOT_STEP (R181, R212, R213). One whose condition does not hold hands nothing over and pushes zero entries itself
(R175, log 16). -/
def execExt (at_ : Place) (s : State) : Out :=
  .next (s.issueAs at_ 1 0x40 vectorWait (fun s cl f acts =>
    let c := at_.cl.val
    let t := at_.tile.val
    s.onTile c t (fun x =>
      let v := VAct.begin x cl f acts
      let x := { x with extCount := x.extCount + 1 }
      if v.left = 0 then x
      else
        { x with
          vact := some { v with zeros := if acts then 0 else v.base.toNat, flagged := true }
          extOwed := if acts && v.base ≠ 0 then
              x.extOwed ++ [{ owed := v.base.toNat, tmode := vTmode f, tok := vTok f, srcTok := 0, first := true, seq := cl.seq }]
            else x.extOwed })))

end Sys2Proof.Machine
end

