-- ==== Sys2Proof/Machine/Matrix.lean ====
section
/-! DEFINITION. The matrix slot: the group-exact dot product (03), operands and scales (05, 07), checks and drains. -/
namespace Sys2Proof.Machine

/-! ### Fields (Tables 06-7 and 07-5) -/

/-- FMT_A. -/
def mA (f : Nat) : Nat := bitsN f 5 3
/-- FMT_B. -/
def mB (f : Nat) : Nat := bitsN f 8 3
/-- G. -/
def mG (f : Nat) : Nat := 32 * 2 ^ bitsN f 11 2
/-- FMT_OUT. -/
def mOut (f : Nat) : Nat := bitsN f 13 3
/-- ACC. -/
def mAcc (f : Nat) : Bool := bitN f 16
/-- ACCQ. -/
def mAccq (f : Nat) : Nat := bitsN f 17 4
/-- SCA of a mode word. -/
def mSca (m : Nat) : Nat := bitsN m 0 2
/-- SCB. -/
def mScb (m : Nat) : Nat := bitsN m 2 2
/-- SCQ. -/
def mScq (m : Nat) : Nat := bitsN m 4 4
/-- SCO. -/
def mSco (m : Nat) : Bool := bitN m 20

/-- Whether the running sum is INT32 (R202). -/
def intSums (f m : Nat) : Bool :=
  fmtInt (mA f) && fmtInt (mB f) && mSca m = 0 && mScb m = 0 && (mOut f = 6 || mOut f = 2 || mOut f = 3)

/-! ### Decoded values and products (R66, R67, R83, R84) -/

/-- The largest finite F32 value. -/
def f32Max : NumVal := .fin ((2 ^ 24 - 1) * 2 ^ 104) 1

/-- A decoded value beyond the F32 range is infinite (R78). -/
def clipF32 (x : NumVal) : NumVal :=
  match x with
  | .fin m _ => if NumVal.lt f32Max (NumVal.abs x) then .inf (decide (m < 0)) else x
  | y => y

/-- The H16 parts of an operand's code: one, or high and low of a split F32 (R83). -/
def partsOf (split : Bool) (fmt code : Nat) : List NumVal :=
  if split then
    let x := decode 5 code
    let hi := decode 0 (convert 0 .rne x).1
    let lo := if hi.special then .fin 0 1 else decode 0 (convert 0 .rne (NumVal.add x (NumVal.neg hi))).1
    [hi, lo]
  else [decode fmt code]

/-- The decoded values of one row of A, or column of B, over a group (R67): escapes take the side-list entries in order. -/
def lineVals (fmt : Nat) (scale : NumVal) (esc : List Nat) : List Nat → List (List NumVal)
  | [] => []
  | c :: r =>
    if fmt = 4 && c = 0xF then [clipF32 (decode 0 (esc.headD 0))] :: lineVals fmt scale (esc.drop 1) r
    else ((partsOf (fmt = 5) fmt c).map (fun x => clipF32 (NumVal.mul x scale))) :: lineVals fmt scale esc r

/-- The products of one k of one cell: every pair of parts but low × low (R84). -/
def cellProducts (a b : List NumVal) : List NumVal :=
  ((a.zip (List.range a.length)).flatMap (fun x => (b.zip (List.range b.length)).filterMap (fun y =>
    if x.2 + y.2 ≤ 1 then some (NumVal.mul x.1 y.1) else none)))

/-! ### Group values (R70, R73, R78, R85) -/

/-- floor(log2) of a non-zero finite product. -/
def prodExp : NumVal → Option Int
  | .fin m d => if m = 0 then none else some (floorLog2 m.natAbs d)
  | _ => none

/-- The largest of a list of exponents. -/
def maxExp : List Int → Option Int
  | [] => none
  | x :: r => match maxExp r with
    | none => some x
    | some y => some (if y < x then x else y)

/-- A product as a count of units 2^u, to nearest even (R73). -/
def unitsOf (u : Int) : NumVal → Int
  | .fin m d =>
    let q := if u < 0 then roundQ .rne (m.natAbs * 2 ^ (-u).toNat) d else roundQ .rne m.natAbs (d * 2 ^ u.toNat)
    if m < 0 then -(q : Int) else q
  | _ => 0

/-- The window sum of a group's products (R73). -/
def windowSum (ps : List NumVal) : NumVal :=
  match maxExp (ps.filterMap prodExp) with
  | none => .fin 0 1
  | some e => dyadic ((ps.map (unitsOf (e - 40))).foldl (· + ·) 0) (e - 40)

/-- The group value V(g) (R70, R73, R78). -/
def groupValue (exact : Bool) (ps : List NumVal) : NumVal :=
  if ps.any NumVal.isNan then .nan
  else if ps.any NumVal.special then (ps.filter NumVal.special).foldl NumVal.add (.fin 0 1)
  else if exact then ps.foldl NumVal.add (.fin 0 1)
  else windowSum ps

/-- One cell's running sum after a group (R76, R77). -/
def addGroup (int : Bool) (sum : Nat) (v : NumVal) : Nat :=
  if int then
    match NumVal.add (decode 6 sum) v with
    | .fin m d => packInt 32 (m / (d : Int))
    | _ => sum
  else f32Add sum (f32Code v)

/-! ### A block's groups -/

/-- Number of groups of a block. -/
def Block.groups (b : Block) : Nat := (b.K + mG b.fld.toNat - 1) / mG b.fld.toNat

/-- Entries that a scale code asks for each group (R203). -/
def groupEntries (sc : Nat) : Nat := if sc = 2 then 1 else if sc = 3 then 2 else 0

/-- Scale and record of line i of a side for the open group (R66, R112). -/
def lineScale (sc : Nat) (tokenWords groupWords : List Nat) (i : Nat) : NumVal :=
  match sc with
  | 0 => .fin 1 1
  | 1 => decode 5 (tokenWords.getD i 0)
  | 2 => decode 5 (groupWords.getD i 0)
  | _ => decode 5 (bitsN (groupWords.getD i 0) 0 32)

/-- COUNT of a record (Table 04-3). -/
def recCount (r : Nat) : Nat := bitsN r 60 4

/-- FIRST of a record. -/
def recFirst (r : Nat) : Nat := bitsN r 32 28

/-- Whether line i of a B4 side is inconsistent in the open group (R111). -/
def badLine (fmt sc : Nat) (groupWords : List Nat) (i : Nat) (codes : List Nat) : Bool :=
  let n := (codes.filter (fun c => c = 0xF)).length
  if fmt ≠ 4 then false
  else if sc = 3 then n ≠ recCount (groupWords.getD i 0) || 8 < recCount (groupWords.getD i 0)
  else n ≠ 0

/-- Codes of row i of A over the open group. -/
def Block.rowA (b : Block) (i : Nat) : List Nat := b.ops.map (fun o => o.1.getD i 0)
/-- Codes of column j of B over the open group. -/
def Block.colB (b : Block) (j : Nat) : List Nat := b.ops.map (fun o => o.2.getD j 0)

/-- Whether everything the block takes per block has been popped (R119). -/
def Block.levelDone (b : Block) : Bool :=
  let m := b.mode.toNat
  (!mAcc b.fld.toNat || b.start.length = 256) && (!mSco m || b.sco ≠ []) && (mSca m ≠ 1 || b.sca ≠ []) &&
    (mScb m ≠ 1 || b.scb ≠ [])

/-- The running sum of a cell: the sum so far, or the start value before the first group (R76, R77). -/
def Block.sumAt (b : Block) (e : Nat) : Nat := if b.closed = 0 then b.start.getD e 0 else b.sums.getD e 0

/-- Whether the open group has all its k steps. -/
def Block.groupFull (b : Block) : Bool :=
  b.ops ≠ [] && decide (b.k = b.K ∨ b.k = (b.closed + 1) * mG b.fld.toNat)

/-! ### The checksum lanes (R92 to R95) -/

/-- A code's unscaled value; an escape position contributes 0 (R92). -/
def codeVal (fmt c : Nat) : NumVal := if fmt = 4 && c = 0xF then .fin 0 1 else decode fmt c

/-- The exact sum of a list of values. -/
def sumVals (xs : List NumVal) : NumVal := xs.foldl NumVal.add (.fin 0 1)

/-- The checksum operand of 16 decoded values: their sum rounded once to a multiple of 2^(A - 40), ties to even, A being the
largest exponent among them (R93). -/
def laneOperand (xs : List NumVal) : NumVal :=
  match maxExp (xs.filterMap prodExp) with
  | none => .fin 0 1
  | some a => dyadic (unitsOf (a - 40) (sumVals xs)) (a - 40)

/-- The checksum operands of one k, one for each part of a split operand: the values of a part are those of its pass (log 49). -/
def laneOperands (lines : List (List (List NumVal))) (k : Nat) : List NumVal :=
  let parts := ((lines.headD []).getD k []).length
  (List.range parts).map (fun p => laneOperand (lines.map (fun l => (l.getD k []).getD p (.fin 0 1))))

/-- A check from its difference and its bound. -/
def LaneCheck.of (exempt : Bool) (diff bound : NumVal) : LaneCheck :=
  match diff, bound with
  | .fin m d, .fin b e => { exempt := exempt, num := m, den := d, bound := b.natAbs, bden := e }
  | _, _ => { exempt := true, num := 0, den := 1, bound := 0, bden := 1 }

/-- An exact-path check: the checksum cell's products of the operand sums with the other side's codes against the 16 unscaled
accumulators, to be equal (R92). -/
def exactCheck (exempt : Bool) (sums other : List NumVal) (cells : List NumVal) : LaneCheck :=
  let own := sumVals ((sums.zip other).map (fun p => NumVal.mul p.1 p.2))
  LaneCheck.of exempt (NumVal.add own (NumVal.neg (sumVals cells))) (.fin 0 1)

/-- The bound of a window-path check: n × 2^(E - 35), E being the largest exponent of a non-zero product compared; exactly 0
where there is none (R94). -/
def windowBound (n : Nat) (products : List NumVal) : NumVal :=
  match maxExp (products.filterMap prodExp) with
  | none => .fin 0 1
  | some e => dyadic n (e - 35)

/-- A window-path check: the checksum cell's group value, by R73 from its own products, against the 16 cells' (R93, R94). -/
def windowCheck (exempt : Bool) (own : List NumVal) (cells : List (List NumVal)) : LaneCheck :=
  LaneCheck.of (exempt || own.any NumVal.special)
    (NumVal.add (windowSum own) (NumVal.neg (sumVals (cells.map windowSum))))
    (windowBound (cells.headD []).length (cells.flatMap id))

/-- The 16 cells of column j, or of row i, of a list of 256. -/
def lineOf {α : Type} (row : Bool) (xs : List α) (d : α) (n : Nat) : List α :=
  (List.range 16).map (fun m => if row then xs.getD (16 * n + m) d else xs.getD (16 * m + n) d)

/-- The checks of a closed group: checksum row cell j against column j, then checksum column cell i against row i. A check is
exempt where a product of a compared cell or of its checksum cell is NaN or infinite (R95). `rows` and `cols` are the decoded
values, `codesA` and `codesB` the codes, line by line. -/
def laneChecks (fa fb : Nat) (rows cols : List (List (List NumVal))) (codesA codesB : List (List Nat))
    (cells : List (List NumVal)) : List LaneCheck :=
  let bad := cells.map (fun ps => ps.any NumVal.special)
  let ks := List.range (codesA.headD []).length
  if exactPair fa fb then
    let va := codesA.map (fun l => l.map (codeVal fa))
    let vb := codesB.map (fun l => l.map (codeVal fb))
    let m := (List.range 256).map (fun e =>
      sumVals (((va.getD (e / 16) []).zip (vb.getD (e % 16) [])).map (fun p => NumVal.mul p.1 p.2)))
    let sa := ks.map (fun k => sumVals (va.map (fun l => l.getD k (.fin 0 1))))
    let sb := ks.map (fun k => sumVals (vb.map (fun l => l.getD k (.fin 0 1))))
    (List.range 16).map (fun j => exactCheck ((lineOf false bad false j).any id) sa (vb.getD j []) (lineOf false m (.fin 0 1) j)) ++
    (List.range 16).map (fun i => exactCheck ((lineOf true bad false i).any id) sb (va.getD i []) (lineOf true m (.fin 0 1) i))
  else
    let oa := ks.map (laneOperands rows)
    let ob := ks.map (laneOperands cols)
    (List.range 16).map (fun j => windowCheck ((lineOf false bad false j).any id)
      ((oa.zip (cols.getD j [])).flatMap (fun p => cellProducts p.1 p.2)) (lineOf false cells [] j)) ++
    (List.range 16).map (fun i => windowCheck ((lineOf true bad false i).any id)
      (((rows.getD i []).zip ob).flatMap (fun p => cellProducts p.1 p.2)) (lineOf true cells [] i))

/-- A group as it closes: the new sums, its checks, inconsistency, and the next free value (R76 to R78, R92 to R95, R111). -/
def Block.closeGroup (b : Block) (free : Nat) : List Nat × List LaneCheck × Bool × Nat :=
  let f := b.fld.toNat
  let m := b.mode.toNat
  let exact := exactPair (mA f) (mB f)
  let codesA := (List.range 16).map b.rowA
  let codesB := (List.range 16).map b.colB
  let rows := (List.range 16).map (fun i =>
    lineVals (mA f) (lineScale (mSca m) b.sca b.gsa i) (b.escA.getD i []) (b.rowA i))
  let cols := (List.range 16).map (fun j =>
    lineVals (mB f) (lineScale (mScb m) b.scb b.gsb j) (b.escB.getD j []) (b.colB j))
  let badR := (List.range 16).map (fun i => badLine (mA f) (mSca m) b.gsa i (b.rowA i))
  let badC := (List.range 16).map (fun j => badLine (mB f) (mScb m) b.gsb j (b.colB j))
  let cells := (List.range 256).map (fun e =>
    ((rows.getD (e / 16) []).zip (cols.getD (e % 16) [])).flatMap (fun p => cellProducts p.1 p.2))
  let sums := (cells.zip (List.range 256)).map (fun p =>
    if badR.getD (p.2 / 16) false || badC.getD (p.2 % 16) false then (Config.freeWord (free + p.2)).toNat
    else addGroup (intSums f m) (b.sumAt p.2) (groupValue exact p.1))
  let bad := badR.any id || badC.any id
  (sums, laneChecks (mA f) (mB f) rows cols codesA codesB cells, bad, if bad then free + 256 else free)

/-! ### Popping (R118, R119, R203) -/

/-- Pop one entry of 16 words if there is one. -/
def Tile.popWords (t : Tile) (q : Nat) : Option (List Nat × Tile) :=
  (t.head q).map (fun e => (entryElems 5 e.data, t.pop q))

/-- Pop as many start-value entries as are there. -/
def popStart : Nat → Tile → Block → Tile × Block
  | 0, t, b => (t, b)
  | n + 1, t, b =>
    if b.start.length < 256 then
      match t.popWords (mAccq b.fld.toNat) with
      | some (ws, t) => popStart n t { b with start := b.start ++ ws }
      | none => (t, b)
    else (t, b)

/-- Pop the block-level entries that are there, in the order of R203; start values first where the queues are one. Nothing is
popped from a queue that is `held` for an earlier block. -/
def popLevel (held : Nat → Bool) (t : Tile) (b : Block) : Tile × Block :=
  let f := b.fld.toNat
  let m := b.mode.toNat
  let (t, b) := if mAcc f && !held (mAccq f) then popStart 16 t b else (t, b)
  if held (mScq m) || (mAcc f && mAccq f = mScq m && b.start.length < 256) then (t, b)
  else
    let (t, b) := if mSco m && b.sco = [] then
        (match t.popWords (mScq m) with
        | some (ws, t) => (t, { b with sco := ws })
        | none => (t, b))
      else (t, b)
    if mSco m && b.sco = [] then (t, b)
    else
      let (t, b) := if mSca m = 1 && b.sca = [] then
          (match t.popWords (mScq m) with
          | some (ws, t) => (t, { b with sca := ws })
          | none => (t, b))
        else (t, b)
      if mSca m = 1 && b.sca = [] then (t, b)
      else if mScb m = 1 && b.scb = [] then
        (match t.popWords (mScq m) with
        | some (ws, t) => (t, { b with scb := ws })
        | none => (t, b))
      else (t, b)

/-- Whether the block-level entries of SCQ, and what stands before them there, have been popped. -/
def Block.scqDone (b : Block) : Bool :=
  let m := b.mode.toNat
  (!mSco m || b.sco ≠ []) && (mSca m ≠ 1 || b.sca ≠ []) && (mScb m ≠ 1 || b.scb ≠ []) &&
    (!mAcc b.fld.toNat || mAccq b.fld.toNat ≠ mScq m || b.start.length = 256)

/-- Whether a block still has block-level entries to pop from a queue (R119). -/
def Block.owes (b : Block) (q : Nat) : Bool :=
  let f := b.fld.toNat
  let m := b.mode.toNat
  (mAcc f && mAccq f = q && decide (b.start.length < 256)) ||
    (mScq m = q && ((mSco m && b.sco = []) || (mSca m = 1 && b.sca = []) || (mScb m = 1 && b.scb = [])))

/-- The queue at which block-level popping stands still, if it does. -/
def Block.levelQueue (b : Block) : Nat :=
  if mAcc b.fld.toNat && b.start.length < 256 then mAccq b.fld.toNat else mScq b.mode.toNat

/-- Words of a group's entries as scale words (code 2) or records (code 3). -/
def groupWordsOf (sc : Nat) (ws : List Nat) : List Nat :=
  if sc = 3 then (List.range 16).map (fun i => ws.getD (2 * i) 0 + 2 ^ 32 * ws.getD (2 * i + 1) 0) else ws

/-- Offers of the open group's escapes: for each, the object-list index and the entry's index (R204). -/
def escapesOf (sc sl : Nat) (recs : List Nat) : List (Nat × Nat) :=
  if sc = 3 then recs.flatMap (fun r => (List.range (recCount r)).map (fun m => (sl, recFirst r + m))) else []

/-! ### Messages to other dies (R500, R502) -/

/-- The lowest tag not outstanding towards a die. -/
def State.freeTag (s : State) (die : Nat) : Option Nat :=
  (List.range 1024).find? (fun n => !s.linkReqs.any (fun r => r.die = die && r.tag = n))

/-- Whether an access could be opened: it goes to no other die, it will be offered, or a tag towards that die is free. -/
def State.canSend (s : State) (tg : Target) : Bool :=
  match tg with
  | .remote d _ _ _ cell => cell || (s.freeTag d).isSome
  | _ => true

/-- Note a request to another die that waits for its response. -/
def State.track (s : State) (die tag tile acc : Nat) : State :=
  { s with linkReqs := s.linkReqs ++ [{ die := die, tag := tag, tile := tile, acc := acc }] }

/-- Send the message of a remote access. -/
def State.sendAccess (s : State) (c t : Nat) (a : Access) : State :=
  let two := a.width = 128
  match a.rd, a.wr with
  | some (.remote d slot ver off _), _ =>
    (match s.freeTag d with
    | none => s
    | some n => (s.track d n (s.tileKey c t) a.id).send d
        (.oread n ver slot (off / 64) two))
  | none, some (.remote d slot ver off _) =>
    (match s.freeTag d with
    | none => s
    | some n => (s.track d n (s.tileKey c t) a.id).send d
        (.owrite n ver slot (off / 64) two a.data))
  | _, _ => s

/-- Whether an access goes to another die at once: to its shelf or larder; one to its cellar is offered first (R275). -/
def Target.far : Target → Bool
  | .remote _ _ _ _ cell => !cell
  | _ => false

/-- Send a read of an escape entry to another die, where it is due and a tag is free (R204, R502). -/
def State.sendEscape (s : State) (c t : Nat) (a : Access) : State :=
  let tg := a.rd.getD .suppressed
  if tg.far && !a.granted && s.canSend tg then
    let b := { a with granted := true }
    (s.onTile c t (fun x => { x with accs := replaceIf (fun o => o.id = a.id) (fun _ => b) x.accs })).sendAccess c t b
  else s

/-- Open the escape reads of a group, as read accesses of the matrix slot; those of another die's object go there as OREAD
(R204). An entry beyond the object's end is read nowhere and decodes as +0; the out-of-window counter does not count it
(DESIGN CHOICE, log 48: the manual suppresses no access here). -/
def State.openEscapes (s : State) (c t seq : Nat) (l : List (Nat × Nat)) : State :=
  l.foldl (fun s p =>
    let tg := s.objectTarget c p.1 ((2 * p.2 : Nat) : Int) 2 false
    let a : Access :=
      { id := (s.tile c t).nextId, slot := 2, seq := seq, xfer := 0, rd := some tg, wr := none, width := 2, data := 0,
        granted := false, have_ := 0, dests := [], ctr := none }
    let s := s.onTile c t (fun x => { x with accs := x.accs ++ [a], nextId := x.nextId + 1 })
    (s.note c t 2 seq (some tg) 2 false).sendEscape c t a) s

/-! ### Soft start, caps and throttles (R241, R242, R486 to R490) -/

/-- K steps that each window of 8 ACLK cycles permits, by the ACLK cycles since a soft-start event (Table 08-6). -/
def softRate (n : Nat) : Nat := if n < 64 then 2 else if n < 128 then 4 else if n < 192 then 6 else if n < 256 then 7 else 8

/-- The same by the die's cap step (R489). -/
def capRate (step : Nat) : Nat :=
  match step with
  | 0 => 8
  | 1 => 7
  | 2 => 6
  | 3 => 4
  | _ => 2

/-- Whether a rate's pattern permits a cycle of the 8-cycle window (Table 08-6). -/
def rateHas (rate i : Nat) : Bool :=
  match rate with
  | 2 => i = 0 || i = 4
  | 4 => i % 2 = 0
  | 6 => i % 4 ≠ 3
  | 7 => i ≠ 7
  | _ => true

/-- The rate that a region's cap and throttles leave (R486, R487, R489). -/
def State.regionRate (s : State) (r : Nat) : Nat :=
  let m := Tbl.get RegionMon.fresh s.power.mon r
  Nat.min (capRate s.power.capStep) (if m.thrPair ≠ 0 || m.thrOwn then 4 else 8)

/-- MCLK time of a tile's last soft-start event: a release of its cluster, or the end, now, of 256 idle ACLK cycles (R242). -/
def State.softEvent (s : State) (c t : Nat) : Nat :=
  let x := s.tile c t
  if 256 ≤ s.aclkIn (c / 4) (s.now - x.kAt) then s.now else Nat.max x.softAt (s.cluster c).softAt

/-- MCLK time of a region's last soft-start event (R490). -/
def State.regionEvent (s : State) (r : Nat) : Nat :=
  ((List.range 4).flatMap (fun i => s.tilesOf.map (s.softEvent (4 * r + i)))).foldl Nat.max 0

/-- K steps that a tile may issue in the present MCLK cycle: the ACLK cycles of it that soft start, cap and throttles all permit,
windows counted from the region's last event (R490, log 49). -/
def State.kPermits (s : State) (c t : Nat) : Nat :=
  let r := c / 4
  let e := s.regionEvent r
  let lo := s.aclkIn r (s.now - e)
  let since := s.aclkIn r (s.now - s.softEvent c t)
  ((List.range (s.aclkIn r (s.now - e + 1) - lo)).filter (fun i =>
    rateHas (Nat.min (softRate (since + i)) (s.regionRate r)) ((lo + i) % 8))).length

/-- Whether a tile's k steps run unrestricted. -/
def State.fullRate (s : State) (c t : Nat) : Bool :=
  softRate (s.aclkIn (c / 4) (s.now - s.softEvent c t)) = 8 && s.regionRate (c / 4) = 8

/-- Whether the next k step of a tile is withheld in this MCLK cycle (R490). -/
def State.withheld (s : State) (c t : Nat) : Bool :=
  let x := s.tile c t
  !s.fullRate c t && decide (s.kPermits c t ≤ if x.kAt = s.now then x.kCount else 0)

/-- A k step is noted for the soft start. -/
def State.noteK (s : State) (c t : Nat) : State :=
  let e := s.softEvent c t
  s.onTile c t (fun x => { x with softAt := e, kCount := if x.kAt = s.now then x.kCount + 1 else 1, kAt := s.now })

/-! ### Meanings -/

/-- An MMA issues once the earlier block's k steps are done and a bank is free (R116). -/
def mmaWait (t : Tile) (_ : Nat) : Wait :=
  if t.blocks.any (fun b => b.k < b.K) then .busy
  else if 2 ≤ t.blocks.length then .stall 25
  else .go

/-- MMA: a block begins; it reads K and its mode word now (R116, R154, R181, R201). A block pops MA and MB anew with its first
k step: k steps of the last entries that its predecessor did not use, K being no multiple of an entry's, are discarded with
that block (DESIGN CHOICE, log 48). -/
def execMma (at_ : Place) (s : State) : Out :=
  .next (s.issueAs at_ 2 1 mmaWait (fun s cl f acts =>
    s.onTile at_.cl.val at_.tile.val (fun x =>
      let b : Block :=
        { fld := BitVec.ofNat 40 f, mode := x.counter (bitsN f 34 3), K := (x.counter (bitsN f 31 3)).toNat, seq := cl.seq,
          addr := cl.addr, acts := acts, k := 0, aLeft := [], bLeft := [], ops := [], start := [], sco := [], sca := [],
          scb := [], gsa := [], gsb := [], gsFor := 0, sums := [], closed := 0, escArrived := true, escA := [], escB := [],
          tok := 0, out := [], filled := false, flagged := false }
      { x with blocks := x.blocks ++ [b] })))

/-- Replace a block, named by its issue count. -/
def Tile.setBlock (t : Tile) (b : Block) : Tile := { t with blocks := replaceIf (fun o => o.seq = b.seq) (fun _ => b) t.blocks }

/-- Close the open group of a block if it is full, its escapes are here and its start values are (R76, R111). -/
def State.closeBlock (s : State) (c t : Nat) (b : Block) : State × Block :=
  if b.groupFull && b.levelDone && b.escArrived then
    let (sums, checks, bad, free) := b.closeGroup s.free
    let b' := { b with sums := sums, closed := b.closed + 1, ops := [], escA := [], escB := [], flagged := b.flagged || bad }
    let s := { s with free := free }
    let s := s.onTile c t (fun x =>
      let x := x.setBlock b'
      let x := if b.acts then { x with verdicts := x.verdicts ++ [checks] } else x
      if bad && !b.flagged then x.illegal 7 2 b.addr else x)
    let s := if bad && !b.flagged then
        (match (s.cluster c).task with
        | none => s
        | some k => s.onTask k (fun y => { y with illegal := satTo 65535 (y.illegal + 1) }))
      else s
    (s, b')
  else (s, b)

/-- Queue ends that keep the next k step from its operands, and the pops it makes (R115, R203). -/
def Block.kNeeds (b : Block) : List (Nat × Nat) :=
  let f := b.fld.toNat
  let m := b.mode.toNat
  let g := b.k / mG f
  (if b.aLeft = [] then [(4, 1)] else []) ++ (if b.bLeft = [] then [(5, 1)] else []) ++
    (if b.gsFor ≤ g then [(mScq m, groupEntries (mSca m) + groupEntries (mScb m))] else [])

/-- One k step of a block whose conditions hold (R114, R115, R203, R204). -/
def State.doKStep (s : State) (c t : Nat) (b : Block) : State :=
  let f := b.fld.toNat
  let m := b.mode.toNat
  let g := b.k / mG f
  let s := if b.gsFor ≤ g && groupEntries (mSca m) + groupEntries (mScb m) ≠ 0 then s.useQueue c t 2 b.seq (mScq m) false else s
  let x := s.tile c t
  let tk := if b.k = 0 then ((x.head 4).map (fun e => e.tok)).getD 0 else b.tok
  let (as_, x) := if b.aLeft = [] then (((x.head 4).map (fun e => entryElems (mA f) e.data)).getD [], x.pop 4) else (b.aLeft, x)
  let (bs, x) := if b.bLeft = [] then (((x.head 5).map (fun e => entryElems (mB f) e.data)).getD [], x.pop 5) else (b.bLeft, x)
  let fresh := b.gsFor ≤ g
  let (ea, x) := if fresh then x.popN (mScq m) (groupEntries (mSca m)) else ([], x)
  let (eb, x) := if fresh then x.popN (mScq m) (groupEntries (mScb m)) else ([], x)
  let gsa := if fresh then groupWordsOf (mSca m) (wordsOf ea) else b.gsa
  let gsb := if fresh then groupWordsOf (mScb m) (wordsOf eb) else b.gsb
  let esc := if fresh then escapesOf (mSca m) (bitsN m 8 6) gsa ++ escapesOf (mScb m) (bitsN m 14 6) gsb else []
  let b' :=
    { b with k := b.k + 1, tok := tk, aLeft := as_.drop 16, bLeft := bs.drop 16, ops := b.ops ++ [(as_.take 16, bs.take 16)],
             gsa := gsa, gsb := gsb, gsFor := if fresh then g + 1 else b.gsFor,
             escArrived := if fresh then esc = [] || !b.acts else b.escArrived }
  let s := (s.setTile c t (x.setBlock b')).noteK c t
  let s := s.chargeCl c (70 * passesOf (mA f) (mB f))
  let s := if b.acts then s.openEscapes c t b.seq esc else s
  (s.closeBlock c t b').1

/-- The matrix slot's use of the queues from which a block now pops block-level entries (R119, R134). -/
def State.useLevel (s : State) (c t : Nat) (held : Nat → Bool) (b : Block) : State :=
  let x := s.tile c t
  let qs := ([mAccq b.fld.toNat, mScq b.mode.toNat].eraseDups).filter (fun q => b.owes q && !held q && (x.head q).isSome)
  s.useQueues c t 2 b.seq qs false

/-- An earlier block that has issued its k steps pops its block-level entries before block `b` pops any from the same queue
(R119); what it still owes. -/
def State.popEarlier (s : State) (c t : Nat) (b : Block) : State × (Nat → Bool) :=
  match (s.tile c t).blocks with
  | [] => (s, fun _ => false)
  | e :: _ =>
    if e.seq = b.seq then (s, fun _ => false)
    else
      let s := s.useLevel c t (fun _ => false) e
      let (x, e) := popLevel (fun _ => false) (s.tile c t) e
      let (s, e) := (s.setTile c t (x.setBlock e)).closeBlock c t e
      (s, e.owes)

/-- MMA_K_STEP (R114 to R119, R203, R204): block-level entries that are there are popped alongside. A k step that soft start, the
cap or a throttle withholds in this MCLK cycle counts under cause 26 (R490). -/
def execMmaKStep (at_ : Place) (s : State) : Out :=
  let c := at_.cl.val
  let t := at_.tile.val
  let x := s.tile c t
  if !(s.cluster c).issues then .next s
  else
    match x.blocks.find? (fun b => b.k < b.K) with
    | none => .next s
    | some b =>
      let (s, held) := s.popEarlier c t b
      let s := s.useLevel c t held b
      let (x, b) := popLevel held (s.tile c t) b
      let (s, b) := (s.setTile c t (x.setBlock b)).closeBlock c t b
      let x := s.tile c t
      let g := b.k / mG b.fld.toNat
      let short := (b.kNeeds.filter (fun p => p.2 ≠ 0 && (held p.1 || !x.canPop p.1 p.2))).map Prod.fst
      let short := if !b.levelDone && 1 ≤ g then b.levelQueue :: short else short
      let short := if !b.scqDone && b.kNeeds.any (fun p => p.1 = mScq b.mode.toNat && p.2 ≠ 0) then
          mScq b.mode.toNat :: short
        else short
      match minOf short with
      | some q => .next (s.stall c q)
      | none =>
        if b.closed < g then .next (s.stall c 24)
        else if s.withheld c t then .next (s.stall c 26)
        else .next (s.doKStep c t b)

/-- The value of an escape entry, once its read has come (R204); undefined where a write of the run is not ordered before it. -/
def State.escValue (s : State) (c t : Nat) (a : Access) : Nat × State :=
  let (d, s) := s.readData c t a
  match a.rd with
  | some (.cellar x) => (bitsN d.toNat (8 * (x % 64)) 16, s)
  | some (.remote _ _ _ off _) => (bitsN d.toNat (8 * (off % 64)) 16, s)
  | some (.here _) => (bitsN d.toNat 0 16, s)
  | _ => (0, s)

/-- Whether a read's data are there: local and suppressed ones at once, cellar and remote ones with their response. -/
def Access.arrived (a : Access) : Bool :=
  match a.rd with
  | some (.cellar x) => decide ((x % 64 + a.width + 63) / 64 ≤ a.have_)
  | some (.remote _ _ _ _ _) => a.have_ != 0
  | _ => true

/-- Hand out values to lines by their counts. -/
def splitBy : List Nat → List Nat → List (List Nat)
  | [], _ => []
  | n :: r, l => l.take n :: splitBy r (l.drop n)

/-- ESCAPE_ENTRY_ARRIVE: the escape entries of the open group are in, and the next group's k steps may issue (R204). Reads that
still wait for a tag towards another die go out. -/
def execEscapeEntryArrive (at_ : Place) (s : State) : Out :=
  let c := at_.cl.val
  let t := at_.tile.val
  let x := s.tile c t
  match x.blocks.find? (fun b => !b.escArrived) with
  | none => .next s
  | some b =>
    let as_ := x.accs.filter (fun a => a.slot = 2 && a.seq = b.seq)
    if as_.all (fun a => a.arrived) then
      let (vals, s) := as_.foldl (fun (p : List Nat × State) a =>
        let (v, s) := p.2.escValue c t a
        (p.1 ++ [v], s)) ([], s)
      let m := b.mode.toNat
      let na := if mSca m = 3 then b.gsa.map recCount else []
      let nb := if mScb m = 3 then b.gsb.map recCount else []
      let b := { b with escArrived := true, escA := splitBy na vals, escB := splitBy nb (vals.drop (na.foldl (· + ·) 0)) }
      let s := s.onTile c t (fun x =>
        { x.setBlock b with accs := x.accs.filter (fun a => !(a.slot = 2 && a.seq = b.seq)) })
      .next (s.closeBlock c t b).1
    else .next (as_.foldl (fun s a => s.sendEscape c t a) s)

/-- What an upset adds to the difference of a lane's check. -/
def Deviation.at_ (d : Option Deviation) (lane : Nat) : NumVal :=
  match d with
  | none => .fin 0 1
  | some d => if d.lane.val = lane then dyadic d.mant d.exp else .fin 0 1

/-- Whether a check fails: it is not exempt, and the difference compared exceeds its bound (R92, R94, R95). -/
def LaneCheck.fails (k : LaneCheck) (dev : NumVal) : Bool :=
  !k.exempt && NumVal.lt (.fin k.bound k.bden) (NumVal.abs (NumVal.add (.fin k.num k.den) dev))

/-- The first of 16 checks, from place `base` on, that fails. -/
def firstFailing (ks : List LaneCheck) (base : Nat) (dev : Option Deviation) : Option Nat :=
  (List.range 16).find? (fun l => ((ks[base + l]?).map (fun k => k.fails (Deviation.at_ dev l))).getD false)

/-- CHECKSUM_VERDICT: the oldest closed group's comparisons complete (R92 to R96). Exempt checks are counted and cannot fail; a
failed one is a class 1 fault, with the cell where both lanes name it. -/
def execChecksumVerdict (at_ : Place) (v : Verdict) (u : Upset) (s : State) : Out :=
  let c := at_.cl.val
  let t := at_.tile.val
  match (s.tile c t).verdicts with
  | [] => .next s
  | ks :: rest =>
    let s := s.onTile c t (fun x =>
      { x with verdicts := rest, exempt := satTo 65535 (x.exempt + (ks.filter (fun k => k.exempt)).length) })
    let s := match firstFailing ks 0 v.rowCheck, firstFailing ks 16 v.colCheck with
      | none, none => s
      | some j, some i => s.tileFault c t 1 (16 * i + j)
      | _, _ => s.tileFault c t 1 0xFF
    .next (s.upset c t u)

/-- The entries of a finished block (R79, R117, R205, R206), its draws and NaN events. -/
def Block.convert (b : Block) (gen : Tbl Word) : List QEntry × Tbl Word × List (Nat × NanEv) :=
  let f := b.fld.toNat
  let m := b.mode.toNat
  let src := if intSums f m then 6 else 5
  let vals := (List.range 256).map (fun e => decode src (b.sumAt e))
  let scaled := (vals.zip (List.range 256)).map (fun p =>
    if mSco m then NumVal.mul p.1 (decode 5 (b.sco.getD (p.2 % 16) 0)) else p.1)
  let (rs, gen) := roundAll (bitN f 27) (srnBits (bitsN f 28 2)) (mOut f) 0 scaled gen
  let per := 512 / fmtWidth (mOut f)
  let datas := (chunks per 16 (rs.map Prod.fst)).map (packElems (mOut f))
  let amax := if bitN f 30 then [packWords ((chunks (mG f) 8 vals).map amaxWord)] else []
  let datas := datas ++ amax
  let datas := if b.acts then datas
    else (chunks per 16 (rs.map Prod.fst)).map (fun _ => packElems (mOut f) []) ++ amax.map (fun _ => 0)
  let tok (i : Nat) : BitVec 4 := tokenOf (bitsN f 25 2) (BitVec.ofNat 4 (bitsN f 21 4)) (i = 0) b.tok
  ((datas.zip (List.range datas.length)).map (fun p => { data := p.1, tok := tok p.2, ready := true, id := 0 }), gen,
    numberEvs 0 rs)

/-- BLOCK_DRAIN: the oldest block, once finished, is converted and pushed to MC as far as there is room; its bank is free
when it is out (R116, R117, R119). -/
def execBlockDrain (at_ : Place) (s : State) : Out :=
  let c := at_.cl.val
  let t := at_.tile.val
  let x := s.tile c t
  if !(s.cluster c).issues then .next s
  else
    match x.blocks with
    | [] => .next s
    | b :: _ =>
      let s := s.useLevel c t (fun _ => false) b
      let x := s.tile c t
      let (x, b) := popLevel (fun _ => false) x b
      let (s, b) := (s.setTile c t (x.setBlock b)).closeBlock c t b
      if b.k < b.K || b.closed < b.groups then .next s
      else if !b.levelDone then .next (s.stall c b.levelQueue)
      else
        let x := s.tile c t
        let (es, gen, evs) := if b.filled then (b.out, x.mgen, []) else b.convert x.mgen
        let n := x.room 6
        let x := x.setQueue 6 (x.queue 6 ++ es.take n)
        let x := { x with mgen := gen, blocks := if es.length ≤ n then x.blocks.drop 1
                                                 else x.blocks.map (fun o => if o.seq = b.seq then { b with out := es.drop n, filled := true } else o) }
        let s := s.setTile c t x
        .next (if b.acts then s.nanEvents c (nanRecs (s.cluster c).rel c b.seq 2 t b.addr 1 evs) else s)

end Sys2Proof.Machine
end

