-- ==== Sys2Proof/Machine/Gcm.lean ====
section
/-! DEFINITION. AES-256-GCM, which the manual uses by name (R372): FIPS 197 and NIST SP 800-38D. A block is a number of 128 bits
whose most significant byte is byte 0. -/
namespace Sys2Proof.Machine

/-! ### AES-256 -/

/-- The S-box of FIPS 197 as one number, the entry for value v in byte v. -/
def aesBox : Nat :=
  0xC072A49CAFA2D4ADF04759FA7DC982CA76ABD7FE2B670130C56F6BF27B777C63 +
  0x75B227EBE28012079A059618C323C7041531D871F1E5A534CCF73F362693FDB7 * 2 ^ 256 +
  0xCF584C4A39BECB6A5BB1FC20ED00D153842FE329B3D63B52A05A6E1B1A2C8309 * 2 ^ 512 +
  0xD2F3FF1021DAB6BCF5389D928F40A351A89F3C507F02F94585334D43FBAAEFD0 * 2 ^ 768 +
  0xDB0B5EDE14B8EE4688902A22DC4F816073195D643D7EA7C41744975FEC130CCD * 2 ^ 1024 +
  0x08AE7A65EAF4566CA94ED58D6D37C8E779E4959162ACD3C25C2406490A3A32E0 * 2 ^ 1280 +
  0x9E1DC186B95735610EF6034866B53E708A8BBD4B1F74DDE8C6B4A61C2E2578BA * 2 ^ 1536 +
  0x16BB54B00F2D99416842E6BF0D89A18CDF2855CEE9871E9B948ED9691198F8E1 * 2 ^ 1792

/-- SubBytes of one byte. -/
def aesSub (x : Nat) : Nat := bitsN aesBox (8 * x) 8

/-- Multiplication by x in the field of FIPS 197. -/
def aesTwice (x : Nat) : Nat := if x < 128 then 2 * x else Nat.xor (2 * x) 0x11B

/-- Byte i of a block. -/
def blockByte (b i : Nat) : Nat := bitsN b (8 * (15 - i)) 8

/-- A block from its 16 bytes. -/
def blockOf (bs : List Nat) : Nat := bs.foldl (fun n b => n * 256 + b) 0

/-- ShiftRows after SubBytes: byte i comes from column i / 4 + row. -/
def aesShift (b : Nat) : List Nat := (List.range 16).map (fun i => aesSub (blockByte b ((i + 4 * (i % 4)) % 16)))

/-- MixColumns of one column. -/
def aesColumn (a b c d : Nat) : List Nat :=
  let t := Nat.xor (Nat.xor a b) (Nat.xor c d)
  let mix (x y : Nat) : Nat := Nat.xor x (Nat.xor t (aesTwice (Nat.xor x y)))
  [mix a b, mix b c, mix c d, mix d a]

/-- MixColumns. -/
def aesMix : List Nat → List Nat
  | a :: b :: c :: d :: r => aesColumn a b c d ++ aesMix r
  | _ => []

/-- SubWord of a key word. -/
def aesWord (w : Nat) : Nat :=
  blockOf [aesSub (bitsN w 24 8), aesSub (bitsN w 16 8), aesSub (bitsN w 8 8), aesSub (bitsN w 0 8)]

/-- The key words from the eight last ones on, newest first: n words from word number i. -/
def aesExpand : Nat → Nat → Nat → List Nat → List Nat
  | 0, _, _, ws => ws
  | n + 1, i, rcon, ws =>
    let prev := ws.headD 0
    let t := if i % 8 = 0 then Nat.xor (aesWord (bitsN prev 0 24 * 256 + bitsN prev 24 8)) (rcon * 2 ^ 24)
      else if i % 8 = 4 then aesWord prev else prev
    aesExpand n (i + 1) (if i % 8 = 0 then 2 * rcon else rcon) (Nat.xor (ws.getD 7 0) t :: ws)

/-- The 15 round keys of a 256-bit key, whose most significant byte is byte 0. -/
def aesKeys (key : Nat) : List Nat :=
  let first := (List.range 8).map (fun i => bitsN key (32 * i) 32)
  let ws := (aesExpand 52 8 1 first).reverse
  (List.range 15).map (fun r => (List.range 4).foldl (fun n i => n * 2 ^ 32 + ws.getD (4 * r + i) 0) 0)

/-- The rounds of the cipher. -/
def aesRounds : List Nat → Nat → Nat
  | [], b => b
  | [k], b => Nat.xor (blockOf (aesShift b)) k
  | k :: ks, b => aesRounds ks (Nat.xor (blockOf (aesMix (aesShift b))) k)

/-- AES-256 of a block under its round keys. -/
def aesBlock (keys : List Nat) (b : Nat) : Nat :=
  match keys with
  | [] => b
  | k :: ks => aesRounds ks (Nat.xor b k)

/-! ### GCM -/

/-- One bit of a product of GF(2^128): the product so far, and the multiplicand. -/
def ghashBit (y : Nat) (p : Nat × Nat) (i : Nat) : Nat × Nat :=
  (if bitN y (127 - i) then Nat.xor p.1 p.2 else p.1,
   if p.2 % 2 = 1 then Nat.xor (p.2 / 2) (0xE1 * 2 ^ 120) else p.2 / 2)

/-- Multiplication in GF(2^128) as GCM numbers its bits. -/
def ghashMul (x y : Nat) : Nat := ((List.range 128).foldl (ghashBit y) (0, x)).1

/-- Blocks of 16 bytes, the last filled with zero bytes. -/
def gcmBlocks (bs : List Byte) : List Nat :=
  (List.range ((bs.length + 15) / 16)).map (fun i =>
    let c := ((bs.drop (16 * i)).take 16).map (fun b => b.toNat)
    blockOf (c ++ List.replicate (16 - c.length) 0))

/-- GHASH of blocks under the hash key. -/
def ghash (h : Nat) (blocks : List Nat) : Nat := blocks.foldl (fun y b => ghashMul (Nat.xor y b) h) 0

/-- The counter block of a 96-bit vector. -/
def gcmCounter (iv n : Nat) : Nat := iv * 2 ^ 32 + n

/-- The 16 bytes of a block. -/
def blockBytes (b : Nat) : List Byte := (List.range 16).map (fun i => BitVec.ofNat 8 (blockByte b i))

/-- Encryption and decryption in counter mode: the text of blocks, cut to a length. -/
def gcmText (keys : List Nat) (iv : Nat) (bs : List Byte) : List Byte :=
  let blocks := gcmBlocks bs
  (((List.range blocks.length).zip blocks).flatMap (fun p =>
    blockBytes (Nat.xor p.2 (aesBlock keys (gcmCounter iv (p.1 + 2)))))).take bs.length

/-- The tag over additional data and a ciphertext. -/
def gcmTag (keys : List Nat) (iv : Nat) (aad text : List Byte) : Nat :=
  let s := ghash (aesBlock keys 0) (gcmBlocks aad ++ gcmBlocks text ++ [8 * aad.length * 2 ^ 64 + 8 * text.length])
  Nat.xor s (aesBlock keys (gcmCounter iv 1))

/-- The number that bytes spell when byte 0 is the most significant. -/
def beNat (bs : List Byte) : Nat := bs.foldl (fun n b => n * 256 + b.toNat) 0

/-- Authenticated decryption: the plaintext where the tag verifies. -/
def gcmOpen (key iv : Nat) (aad text : List Byte) (tag : Nat) : Gcm :=
  let keys := aesKeys key
  { ok := gcmTag keys iv aad text = tag, plain := gcmText keys iv text }

end Sys2Proof.Machine
end

