-- ==== Sys2Proof/Machine/Crypto.lean ====
section
/-! DEFINITION. The public standards that the manual uses by name beside AES-GCM: SHA-384 (FIPS 180-4), HMAC and HKDF, and the curve
P-384 with ECDH and ECDSA (FIPS 186-5; R446, R450, R452, R457, R465). Numbers are big-endian in bytes, as SEC1 writes them. -/
namespace Sys2Proof.Machine

/-- The n bytes of a number, the most significant first. -/
def beBytes (n x : Nat) : List Byte := (List.range n).map (fun i => BitVec.ofNat 8 (bitsN x (8 * (n - 1 - i)) 8))

/-! ### SHA-384 -/

/-- The first half of the round constants of FIPS 180-4. -/
def shaConstLow : List Nat :=
  [0x428A2F98D728AE22, 0x7137449123EF65CD, 0xB5C0FBCFEC4D3B2F, 0xE9B5DBA58189DBBC,
   0x3956C25BF348B538, 0x59F111F1B605D019, 0x923F82A4AF194F9B, 0xAB1C5ED5DA6D8118,
   0xD807AA98A3030242, 0x12835B0145706FBE, 0x243185BE4EE4B28C, 0x550C7DC3D5FFB4E2,
   0x72BE5D74F27B896F, 0x80DEB1FE3B1696B1, 0x9BDC06A725C71235, 0xC19BF174CF692694,
   0xE49B69C19EF14AD2, 0xEFBE4786384F25E3, 0x0FC19DC68B8CD5B5, 0x240CA1CC77AC9C65,
   0x2DE92C6F592B0275, 0x4A7484AA6EA6E483, 0x5CB0A9DCBD41FBD4, 0x76F988DA831153B5,
   0x983E5152EE66DFAB, 0xA831C66D2DB43210, 0xB00327C898FB213F, 0xBF597FC7BEEF0EE4,
   0xC6E00BF33DA88FC2, 0xD5A79147930AA725, 0x06CA6351E003826F, 0x142929670A0E6E70,
   0x27B70A8546D22FFC, 0x2E1B21385C26C926, 0x4D2C6DFC5AC42AED, 0x53380D139D95B3DF,
   0x650A73548BAF63DE, 0x766A0ABB3C77B2A8, 0x81C2C92E47EDAEE6, 0x92722C851482353B]

/-- The second half. -/
def shaConstHigh : List Nat :=
  [0xA2BFE8A14CF10364, 0xA81A664BBC423001, 0xC24B8B70D0F89791, 0xC76C51A30654BE30,
   0xD192E819D6EF5218, 0xD69906245565A910, 0xF40E35855771202A, 0x106AA07032BBD1B8,
   0x19A4C116B8D2D0C8, 0x1E376C085141AB53, 0x2748774CDF8EEB99, 0x34B0BCB5E19B48A8,
   0x391C0CB3C5C95A63, 0x4ED8AA4AE3418ACB, 0x5B9CCA4F7763E373, 0x682E6FF3D6B2B8A3,
   0x748F82EE5DEFB2FC, 0x78A5636F43172F60, 0x84C87814A1F0AB72, 0x8CC702081A6439EC,
   0x90BEFFFA23631E28, 0xA4506CEBDE82BDE9, 0xBEF9A3F7B2C67915, 0xC67178F2E372532B,
   0xCA273ECEEA26619C, 0xD186B8C721C0C207, 0xEADA7DD6CDE0EB1E, 0xF57D4F7FEE6ED178,
   0x06F067AA72176FBA, 0x0A637DC5A2C898A6, 0x113F9804BEF90DAE, 0x1B710B35131C471B,
   0x28DB77F523047D84, 0x32CAAB7B40C72493, 0x3C9EBE0A15C9BEBC, 0x431D67C49C100D4C,
   0x4CC5D4BECB3E42B6, 0x597F299CFC657E2A, 0x5FCB6FAB3AD6FAEC, 0x6C44198C4A475817]

/-- The eight words of the hash while it is computed. -/
structure ShaState where
  a : Nat
  b : Nat
  c : Nat
  d : Nat
  e : Nat
  f : Nat
  g : Nat
  h : Nat
deriving DecidableEq, Repr

/-- The initial hash value of SHA-384. -/
def ShaState.init : ShaState :=
  { a := 0xCBBB9D5DC1059ED8, b := 0x629A292A367CD507, c := 0x9159015A3070DD17, d := 0x152FECD8F70E5939
    e := 0x67332667FFC00B31, f := 0x8EB44A8768581511, g := 0xDB0C2E0D64F98FA7, h := 0x47B5481DBEFA4FA4 }

/-- A 64-bit word rotated right. -/
def shaRot (x n : Nat) : Nat := x / 2 ^ n + x % 2 ^ n * 2 ^ (64 - n)

/-- The exclusive or of three words. -/
def xor3 (x y z : Nat) : Nat := Nat.xor (Nat.xor x y) z

/-- Further words of the message schedule, the newest first. -/
def shaExpand : Nat → List Nat → List Nat
  | 0, ws => ws
  | n + 1, ws =>
    let x := ws.getD 14 0
    let y := ws.getD 1 0
    let s0 := xor3 (shaRot x 1) (shaRot x 8) (x / 2 ^ 7)
    let s1 := xor3 (shaRot y 19) (shaRot y 61) (y / 2 ^ 6)
    shaExpand n ((s1 + ws.getD 6 0 + s0 + ws.getD 15 0) % 2 ^ 64 :: ws)

/-- One round, with its constant and schedule word. -/
def ShaState.round (x : ShaState) (kw : Nat × Nat) : ShaState :=
  let ch := Nat.xor (Nat.land x.e x.f) (Nat.land (2 ^ 64 - 1 - x.e) x.g)
  let maj := xor3 (Nat.land x.a x.b) (Nat.land x.a x.c) (Nat.land x.b x.c)
  let t1 := x.h + xor3 (shaRot x.e 14) (shaRot x.e 18) (shaRot x.e 41) + ch + kw.1 + kw.2
  let t2 := xor3 (shaRot x.a 28) (shaRot x.a 34) (shaRot x.a 39) + maj
  { a := (t1 + t2) % 2 ^ 64, b := x.a, c := x.b, d := x.c, e := (x.d + t1) % 2 ^ 64, f := x.e, g := x.f, h := x.g }

/-- The hash value with the words of one more block of 1,024 bits. -/
def ShaState.block (x : ShaState) (words : List Nat) : ShaState :=
  let ws := (shaExpand 64 words.reverse).reverse
  let y := ((shaConstLow ++ shaConstHigh).zip ws).foldl ShaState.round x
  { a := (x.a + y.a) % 2 ^ 64, b := (x.b + y.b) % 2 ^ 64, c := (x.c + y.c) % 2 ^ 64, d := (x.d + y.d) % 2 ^ 64
    e := (x.e + y.e) % 2 ^ 64, f := (x.f + y.f) % 2 ^ 64, g := (x.g + y.g) % 2 ^ 64, h := (x.h + y.h) % 2 ^ 64 }

/-- A message with its padding and length, as 64-bit words. -/
def shaWords (bs : List Byte) : List Nat :=
  let zeros := (239 - bs.length % 128) % 128
  let all := bs ++ 0x80 :: List.replicate zeros 0 ++ beBytes 16 (8 * bs.length)
  (List.range (all.length / 8)).map (fun i => beNat ((all.drop (8 * i)).take 8))

/-- The blocks of 16 words. -/
def shaBlocks (ws : List Nat) : List (List Nat) := (List.range (ws.length / 16)).map (fun i => (ws.drop (16 * i)).take 16)

/-- SHA-384 as the number its 48 bytes spell. -/
def shaNat (bs : List Byte) : Nat :=
  let x := (shaBlocks (shaWords bs)).foldl ShaState.block ShaState.init
  [x.a, x.b, x.c, x.d, x.e, x.f].foldl (fun n w => n * 2 ^ 64 + w) 0

/-- SHA-384; bits [7:0] hold byte 0, as in the engine's own memory. -/
def sha384 (bs : List Byte) : BitVec 384 := BitVec.ofNat 384 (leNat (beBytes 48 (shaNat bs)))

/-! ### HMAC and HKDF -/

/-- HMAC-SHA-384 under a key of at most 128 bytes. -/
def hmac384 (key msg : List Byte) : List Byte :=
  let k := key ++ List.replicate (128 - key.length) 0
  beBytes 48 (shaNat (k.map (fun b => b ^^^ 0x5C) ++ beBytes 48 (shaNat (k.map (fun b => b ^^^ 0x36) ++ msg))))

/-- The blocks of HKDF's output: n more after the last one, numbered from i. -/
def hkdfBlocks (prk info : List Byte) : Nat → Nat → List Byte → List Byte
  | 0, _, _ => []
  | n + 1, i, last =>
    let t := hmac384 prk (last ++ info ++ [BitVec.ofNat 8 i])
    t ++ hkdfBlocks prk info n (i + 1) t

/-- HKDF-SHA-384: n bytes from keying material, salt and info. -/
def hkdf384 (salt ikm info : List Byte) (n : Nat) : List Byte :=
  (hkdfBlocks (hmac384 salt ikm) info ((n + 47) / 48) 1 []).take n

/-! ### P-384 -/

/-- The prime of the field. -/
def curveP : Nat := 2 ^ 384 - 2 ^ 128 - 2 ^ 96 + 2 ^ 32 - 1

/-- The order of the curve's base point. -/
def curveN : Nat :=
  0xFFFFFFFFFFFFFFFFFFFFFFFFFFFFFFFFFFFFFFFFFFFFFFFFC7634D81F4372DDF581A0DB248B0A77AECEC196ACCC52973

/-- The base point. -/
def curveG : Nat × Nat :=
  (0xAA87CA22BE8B05378EB1C71EF320AD746E1D3B628BA79B9859F741E082542A385502F25DBF55296C3A545E3872760AB7,
   0x3617DE4A96262C6F5D9E98BF9292DC29F8F41DBD289A147CE9DA3113B5F0B8C00A60B1CE1D7E819D7A431D7C90EA0E5F)

/-- A difference in the field. -/
def subP (x y : Nat) : Nat := (x + curveP - y % curveP) % curveP

/-- A power modulo m, from the exponent's bits, the highest first. -/
def powMod (m x e : Nat) : Nat :=
  (List.range 384).foldl (fun r i =>
    let q := r * r % m
    if bitN e (383 - i) then q * x % m else q) 1

/-- A point in Jacobian coordinates; z is 0 at infinity. -/
structure Point where
  x : Nat
  y : Nat
  z : Nat
deriving DecidableEq, Repr

/-- Twice a point. -/
def Point.twice (p : Point) : Point :=
  let d := p.z * p.z % curveP
  let g := p.y * p.y % curveP
  let b := p.x * g % curveP
  let a := 3 * (subP p.x d * (p.x + d)) % curveP
  let x := subP (a * a) (8 * b)
  { x := x, y := subP (a * subP (4 * b) x) (8 * (g * g)), z := 2 * (p.y * p.z) % curveP }

/-- A point plus an affine one. -/
def Point.plus (p : Point) (q : Nat × Nat) : Point :=
  if p.z = 0 then { x := q.1, y := q.2, z := 1 }
  else
    let zz := p.z * p.z % curveP
    let h := subP (q.1 * zz) p.x
    let r := subP (q.2 * (p.z * zz % curveP)) p.y
    if h = 0 then (if r = 0 then p.twice else { x := 1, y := 1, z := 0 })
    else
      let hh := h * h % curveP
      let hhh := h * hh % curveP
      let v := p.x * hh % curveP
      let x := subP (r * r) (hhh + 2 * v)
      { x := x, y := subP (r * subP v x) (p.y * hhh), z := p.z * h % curveP }

/-- The affine coordinates of a point. -/
def Point.affine (p : Point) : Nat × Nat :=
  let i := powMod curveP p.z (curveP - 2)
  let ii := i * i % curveP
  (p.x * ii % curveP, p.y * (i * ii % curveP) % curveP)

/-- A scalar times a point. -/
def curveMul (k : Nat) (q : Nat × Nat) : Nat × Nat :=
  ((List.range 384).foldl (fun (p : Point) i =>
    let t := p.twice
    if bitN k (383 - i) then t.plus q else t) { x := 1, y := 1, z := 0 }).affine

/-- SEC1 uncompressed form of a point, 97 bytes. -/
def sec1 (q : Nat × Nat) : List Byte := 4 :: (beBytes 48 q.1 ++ beBytes 48 q.2)

/-! ### The die's keys (R446, R452, R465) -/

/-- The identity public key of an identity scalar (R446). -/
def identityPub (id : BitVec 384) : List Byte := sec1 (curveMul id.toNat curveG)

/-- The agreement scalar derived from an identity scalar: 56 bytes of HKDF with the info "ZX agree" (R446). -/
def agreeScalar (id : BitVec 384) : Nat :=
  beNat (hkdf384 [] (beBytes 48 id.toNat) [0x5A, 0x58, 0x20, 0x61, 0x67, 0x72, 0x65, 0x65] 56) % (curveN - 1) + 1

/-- The agreement public key (R446). -/
def agreementPub (id : BitVec 384) : List Byte := sec1 (curveMul (agreeScalar id) curveG)

/-- The identity digest RID: SHA-384 over the identity public key (R446). -/
def identityDigest (id : BitVec 384) : BitVec 384 := sha384 (identityPub id)

/-- The wrap key of a parcel: HKDF over the x-coordinate of the agreement scalar times the author's point, with salt PARCEL_ID and
info RID (R452). -/
def wrapKey (id : BitVec 384) (eph parcelId : List Byte) : Nat :=
  let q := (beNat ((eph.drop 1).take 48), beNat ((eph.drop 49).take 48))
  beNat (hkdf384 parcelId (beBytes 48 (curveMul (agreeScalar id) q).1) (leBytes 48 (identityDigest id).toNat) 32)

/-- The ECDSA P-384 signature (r, s) of an identity scalar over a digest, with a secret number that the die draws: a free value
(FIPS 186-5, R465; log 10). -/
def ecdsa (id digest : BitVec 384) (secret : Nat) : Nat × Nat :=
  let k := Config.freeScalar secret % (curveN - 1) + 1
  let r := (curveMul k curveG).1 % curveN
  let z := beNat (leBytes 48 digest.toNat)
  (r, powMod curveN k (curveN - 2) * ((z + r * id.toNat) % curveN) % curveN)

end Sys2Proof.Machine
end

