-- ==== Sys2Proof/Machine/Start.lean ====
section
/-! DEFINITION. How a run starts on a cluster: generators, cleared registers, wipe, stage copy, release (R90, R136, R235,
R289 to R291, R319, R353), and how other dies' bytes are read. -/
namespace Sys2Proof.Machine

/-! ### Generators (R89, R90) -/

/-- The sixteen generators of a unit of a tile: unit 0 vector, 1 matrix output converter. -/
def laneSeeds (seed rel tile unit : Nat) : Tbl Word :=
  (List.range 16).map (fun l => (l, BitVec.ofNat 32 (laneSeed seed (l + 16 * tile + 256 * unit + 4096 * rel))))

/-- A tile at the start of a run (R136). -/
def Tile.start (seed rel tile : Nat) : Tile :=
  { Tile.fresh with vgen := laneSeeds seed rel tile 0, mgen := laneSeeds seed rel tile 1 }

/-! ### Fields of a task (Table 11-6) -/

/-- TASK_SEED. -/
def Task.seed (t : Task) : Nat := bitsN t.desc.toNat 64 64
/-- NORESUB. -/
def Task.noResub (t : Task) : Bool := bitN t.desc.toNat 5
/-- NCLUSTER. -/
def Task.ncluster (t : Task) : Nat := bitsN t.desc.toNat 16 12
/-- PARAGRAPH. -/
def Task.paragraph (t : Task) : Word := BitVec.ofNat 32 (bitsN t.desc.toNat 32 32)
/-- BUDGET in microseconds. -/
def Task.budget (t : Task) : Nat := bitsN t.desc.toNat 128 16
/-- WEIGHT. -/
def Task.weight (t : Task) : Word := BitVec.ofNat 32 (bitsN t.desc.toNat 192 32)
/-- SIGNAL. -/
def Task.signal (t : Task) : Word := BitVec.ofNat 32 (bitsN t.desc.toNat 224 32)
/-- SIGNAL_VALUE. -/
def Task.signalValue (t : Task) : Nat := bitsN t.desc.toNat 256 64
/-- The waits that a task names: fence and value. -/
def Task.waits (t : Task) : List (Word × Nat) :=
  [(BitVec.ofNat 32 (bitsN t.desc.toNat 320 32), bitsN t.desc.toNat 352 64),
   (BitVec.ofNat 32 (bitsN t.desc.toNat 416 32), bitsN t.desc.toNat 448 64)].filter (fun p => p.1 ≠ 0)

/-- Die of a handle (R303). -/
def handleDie (h : Word) : Nat := bitsN h.toNat 16 4
/-- Descriptor slot of a handle. -/
def handleSlot (h : Word) : Nat := bitsN h.toNat 0 16
/-- Partition of a handle. -/
def handlePart (h : Word) : Nat := bitsN h.toNat 29 3
/-- Generation of a handle. -/
def handleGen (h : Word) : Nat := bitsN h.toNat 20 9

/-- Key of a task. -/
def Task.key (t : Task) : Nat := taskKey t.die t.seq

/-- Task-relative number of the first cluster of a die. -/
def relBase (die : Nat) : List (Nat × Nat) → Nat
  | [] => 0
  | (d, n) :: r => if d = die then 0 else n + relBase die r

/-- Die that holds a task-relative cluster. -/
def dieOf (rel : Nat) : List (Nat × Nat) → Option Nat
  | [] => none
  | (d, n) :: r => if rel < n then some d else dieOf (rel - n) r

/-- The ranges that a task has written, in its runs up to now. -/
def Task.writes (t : Task) : List (Nat × Nat) := t.wrote ++ (t.log.filter (fun a => a.write)).map (fun a => (a.lo, a.len))

/-- The barrier master of a task: the lowest die that holds its clusters (R238). -/
def Task.master (t : Task) : Nat := (minOf (t.layout.map Prod.fst)).getD t.die

/-- Note a die's report to the barrier master: the highest stop epoch reached, and whether it has ended. -/
def Task.report (t : Task) (die epoch : Nat) (ended : Bool) : Task :=
  { t with reports := (die, epoch, ended) :: t.reports.filter (fun r => r.1 ≠ die) }

/-- What a die has reported. -/
def Task.reported (t : Task) (die : Nat) : Nat × Bool :=
  match t.reports.find? (fun r => r.1 = die) with
  | none => (0, false)
  | some r => (r.2.1, r.2.2)

/-- Whether every die of a task has reported that its clusters have ended (R235). -/
def Task.allReported (t : Task) : Bool := (t.layout.map Prod.fst).all (fun d => (t.reported d).2)

/-- A held task runs again: its versions, references and clusters stay; what its last run recorded does not. An abort under
R288 makes no retry of it (R288, R424). -/
def Task.again (t : Task) : Task :=
  if t.life = .held then
    { t with life := .running, started := [], drains := [], rerun := t.rerun || (t.cause ≠ some .followOn && t.cause.isSome), cause := none,
             illegal := 0, seqErr := 0, warn := false, nans := [], log := [], reports := [], stops := 0,
             wrote := t.writes }
  else t

/-! ### Release -/

/-- A cluster at the start of a run: sequencer, mailbox and registers cleared, the extension port's epoch advanced, a soft
start begun (R226, R242, R244, R353, R357). -/
def Cluster.start (x : Cluster) (k rel ctx now : Nat) : Cluster :=
  { x with
    task := some k
    rel := rel
    phase := .loading
    last := some ctx
    view := some ctx
    startAt := if x.phase = .staging ∨ x.phase = .ready then x.startAt else now
    mask := 0xFFFF
    sv := []
    agd := []
    para := []
    next := 0
    step := .barrier
    punct := 0
    loops := []
    bcount := 0
    commas := 0
    regEpoch := 0
    stopEpoch := 0
    paraEnded := false
    mbox := []
    sent := 0
    received := 0
    seqErrs := 0
    seqCause := 0
    seqErrValid := false
    seqErrAt := 0
    extEpoch := (x.extEpoch + 1) % 16
    extUsed := false
    extStale := 0
    extUnowed := 0
    extIn := []
    extRead := []
    extAt := none
    areq := []
    ares := []
    resv := none
    posted := 0
    softAt := now
    asked := false
    fetched := 0 }

/-- The tiles of a cluster at the start of a run: those that answer to a logical number by R136, the others idle. -/
def State.startTiles (s : State) (c seed rel : Nat) : State :=
  (List.range 17).foldl (fun s p =>
    let t := (s.tilesOf.find? (fun t => (s.cluster c).phys t = p)).map (fun t => Tile.start seed rel t)
    { s with tiles := Tbl.set (c * 17 + p) { t.getD Tile.fresh with kAt := s.now } s.tiles }) s

/-- Release a cluster to a run: its sequencer loads its paragraph next (R219, R235). -/
def State.release (s : State) (c k rel : Nat) : State :=
  match s.task? k with
  | none => s
  | some t =>
    let s := (s.startTiles c t.seed rel).setTask k { t with started := c :: t.started.filter (fun d => d ≠ c) }
    s.onCluster c (fun x => x.start k rel (s.ctxKey t.die t.ctx.toNat) s.now)

/-- Release a cluster whose stage buffers are in order: the buffer that was staged becomes the one in use (R289). -/
def State.releaseStaged (s : State) (c k rel : Nat) : State :=
  (s.release c k rel).onCluster c (fun x =>
    { x with stageSel := 1 - x.stageSel, stageOf := some k, stageFor := none, staged := false })


/-- Whether a cluster has no run and no reservation, and may be given one (R317, R318). -/
def State.idle (s : State) (c : Nat) : Bool :=
  let x := s.cluster c
  s.usable c && !s.closing c && x.task.isNone && x.phase = .idle && x.resv.isNone && x.stageFor.isNone

/-- Whether a cluster has ended a task's present run (R235): it has started it, and is done or works for another task. -/
def State.endedFor (s : State) (k c : Nat) : Bool :=
  let x := s.cluster c
  (match s.task? k with
   | none => true
   | some t => t.started.contains c) && (x.task ≠ some k || x.phase = .ended || x.phase = .copying)

/-- Whether every cluster of a task on this die has ended. -/
def State.allEnded (s : State) (t : Task) : Bool := t.clusters.all (fun c => s.endedFor t.key c)

/-- Clusters of a task with their task-relative numbers. -/
def State.numbered (s : State) (t : Task) : List (Nat × Nat) :=
  t.clusters.zip ((List.range t.clusters.length).map (fun i => relBase s.die t.layout + i))

/-- Whether a task has ended everywhere, as far as this die is told (R235, R238): the barrier master has every die's report, and
tells the others (log 37). -/
def State.endedEverywhere (s : State) (t : Task) : Bool :=
  s.allEnded t && (if t.master = s.die then t.allReported else (t.reported t.master).2)

/-- Whether the task that a task follows early has ended on the other dies too. -/
def State.leaderEnded (s : State) (t : Task) : Bool :=
  match t.after.bind s.task? with
  | none => true
  | some p => p.layout.length ≤ 1 || s.endedEverywhere p

/-- Release a task whose stage copies here are complete and whose predecessor has ended everywhere (R291). -/
def State.tryStaged (s : State) (k : Nat) : State :=
  match s.task? k with
  | none => s
  | some t =>
    if t.life = .running ∧ s.leaderEnded t ∧ t.clusters.all (fun c =>
        let x := s.cluster c
        x.stageFor = some k && x.staged &&
          (x.task.isNone || (x.task = some k && x.phase = .ready) || (x.task ≠ some k && x.phase = .ended))) then
      (s.numbered t).foldl (fun s p => s.releaseStaged p.1 k p.2) s
    else s

/-- Under FILL_WEIGHTS a cluster waits for its stage copy, unless the buffer in use holds the task's slice already (R290,
R292); one whose copy came while the task was held waits for the other clusters only. Under FILL_BATCH it is released. -/
def State.stageOrRelease (s : State) (c k rel : Nat) : State :=
  match s.task? k with
  | none => s
  | some t =>
    if s.policy t.part = 1 ∧ (s.cluster c).stageOf ≠ some k then
      let here := (s.cluster c).stageFor = some k
      (s.onCluster c (fun x =>
        { x with task := some k, rel := rel, phase := if here && x.staged then .ready else .staging, stageFor := some k,
                 staged := here && x.staged, stagePaid := if here then x.stagePaid else 0, startAt := s.now })).tryStaged k
    else s.release c k rel

/-- Give a cluster to a run: it is wiped first where its last task was of another context (R319). -/
def State.begin (s : State) (c k rel : Nat) : State :=
  match s.task? k with
  | none => s
  | some t =>
    let x := s.cluster c
    if x.last.isNone || x.last = some (s.ctxKey t.die t.ctx.toNat) then s.stageOrRelease c k rel
    else s.onCluster c (fun x =>
      { x with task := some k, rel := rel, phase := .wiping, startAt := s.now, stageOf := none, stageFor := none, staged := false })

/-! ### Reading an object as the engine itself does (R217, R290, R313) -/

/-- A number of n bytes of a version of an object; bytes of another die's object are free values (log 17). -/
def State.imageNat (s : State) (die slot : Nat) (ver : Bool) (b n : Nat) : Nat :=
  if die = s.die then s.objNat (s.obj slot) ver b n
  else leNat ((List.range n).map (fun i => (Config.freeWord (s.free + b + i)).truncate 8))

/-- Size of an object; a free value for another die's (log 17). -/
def State.imageSize (s : State) (die slot : Nat) : Nat :=
  if die = s.die then (s.obj slot).size else (Config.freeWord s.free).toNat

/-- After another die's object has been read, its free values are spent. -/
def State.spend (s : State) (die : Nat) : State :=
  if die = s.die then s else { s with free := s.free + 2 ^ 32 }

end Sys2Proof.Machine
end

