-- ==== Sys2Proof/Machine/Granules.lean ====
section
/-! DEFINITION. Cellar granules: which ones an access asks for, their way into the class queues of the ports, and how they end
(R249 to R251, R347 to R351). -/
namespace Sys2Proof.Machine

/-! ### What an access asks for (R249, R275) -/

/-- The cellar address that an access now reads or writes, with whether it writes. -/
def Access.atCellar (a : Access) : Option (Nat × Bool) :=
  match a.rd, a.wr with
  | some (.cellar x), _ => some (x, false)
  | none, some (.cellar x) => some (x, true)
  | _, _ => none

/-- The cellar address, or the offset in an object of another die's cellar, of the granules that an access now asks for, with
whether it writes: an access of which this is something is offered for granting (R275, R277). -/
def Access.cellStep (a : Access) : Option (Nat × Bool) :=
  match a.rd, a.wr with
  | some (.cellar x), _ => some (x, false)
  | some (.remote _ _ _ off true), _ => some (off, false)
  | none, some (.cellar x) => some (x, true)
  | none, some (.remote _ _ _ off true) => some (off, true)
  | _, _ => none

/-- The cellar port that an address hashes to (R250). -/
def cellarPortOf (a : Nat) : Nat :=
  Nat.xor (Nat.xor (bitsN a 6 4) (bitsN a 10 4)) (Nat.xor (bitsN a 14 4) (bitsN a 18 4))

/-- The granules that n bytes from an address touch: their addresses, ascending. -/
def granulesOf (x n : Nat) : List Nat := (List.range ((x % 64 + n + 63) / 64)).map (fun i => x / 64 * 64 + 64 * i)

/-- The granules of a cellar access. -/
def Access.granules (a : Access) (x : Nat) : List Nat := granulesOf x a.width

/-- Whether a slot stands at a cellar step that is not granted yet, or granted and waiting for its class queue (R272, R277): it
makes no further step then; the cycles count with the grants. -/
def Tile.stuck (t : Tile) (slot : Nat) : Bool :=
  t.accs.any (fun a => a.slot = slot && (a.waits != 0 || (a.cellStep.isSome && !a.granted)))

/-- Change an access of a tile in the tile table. -/
def State.onAcc (s : State) (key id : Nat) (f : Access → Access) : State :=
  let x := Tbl.get Tile.fresh s.tiles key
  let y : Tile := { x with accs := replaceIf (fun a => a.id = id) f x.accs }
  { s with tiles := Tbl.set key y s.tiles }

/-- The logical tile that answers for a physical one, named by its key. -/
def State.logical (s : State) (key : Nat) : Nat :=
  if key % 17 = 16 then (s.cluster (key / 17)).spare.target else key % 17

/-- Whether an unordered write of the run touches the bytes that an access writes, on this die's memory or its cellar (R130,
R167). -/
def State.writeClash (s : State) (c t : Nat) (a : Access) : Bool :=
  match a.wr.bind Target.flat, (s.cluster c).task with
  | some p, some k => s.conflicts k (s.accLog c t a.slot a.seq p a.width true)
  | _, _ => false

/-! ### The end of a granule (R163, R295, R349, R351) -/

/-- An access of a stopped run whose last granule is answered is over: what it read is discarded (R295). -/
def State.settleAcc (s : State) (key id : Nat) : State :=
  let x := Tbl.get Tile.fresh s.tiles key
  match x.accs.find? (fun a => a.id = id) with
  | none => s
  | some a =>
    let done := match a.atCellar with
      | some (y, _) => decide ((a.granules y).length ≤ a.have_)
      | none => a.have_ != 0
    if (s.cluster (key / 17)).phase = .stopped && done then
      { s with tiles := Tbl.set key (x.endAcc id) s.tiles }
    else s

/-- One granule of an access is answered: a read's data take their half of the line. -/
def State.answered (s : State) (key id half : Nat) (data : Option Entry) : State :=
  let put (a : Access) (d : Entry) : BitVec 1024 :=
    BitVec.ofNat 1024 (if half = 0 then a.data.toNat / 2 ^ 512 * 2 ^ 512 + d.toNat
      else a.data.toNat % 2 ^ 512 + d.toNat * 2 ^ 512)
  let s := s.onAcc key id (fun a => { a with have_ := a.have_ + 1, data := (data.map (put a)).getD a.data })
  s.settleAcc key id

/-- A request served for another die has an answer for one granule; with its last the response goes back (R500). -/
def State.servedOne (s : State) (die tag half err : Nat) (data : Option Entry) : State :=
  match s.served.find? (fun r => r.die = die && r.tag = tag) with
  | none => s
  | some r =>
    let d : BitVec 1024 := match data with
      | none => r.data
      | some d => BitVec.ofNat 1024 (r.data.toNat + d.toNat * 2 ^ (512 * half))
    let r' := { r with got := r.got + 1, err := max r.err err, data := d }
    let rest := s.served.filter (fun q => !(q.die = die && q.tag = tag))
    if r'.need ≤ r'.got then
      { s with served := rest }.send die (if r.write then .wack tag r'.err else .rdata tag r'.err d)
    else { s with served := r' :: rest }

/-- The fault of a run whose cellar access failed (R349), of the run it is for where it is a stage copy (R292). Another die's run hears of it in its response; a commit write is past
its run. -/
def State.granuleFault (s : State) (g : Gran) (cls : Nat) : State :=
  let fault (c : Nat) : State :=
    match (s.cluster c).task with
    | none => s
    | some k => s.abortRun k (.fault cls g.addr c 31)
  match g.src with
  | .access key _ _ => fault (key / 17)
  | .para c => fault c
  | .stage c =>
    match (s.cluster c).stageFor with
    | none => s
    | some k => s.abortRun k (.fault cls g.addr c 31)
  | _ => s

/-- Tell the one who asked for a granule that it is answered. -/
def State.deliver (s : State) (g : Gran) (err : Nat) (data : Option Entry) : State :=
  match g.src with
  | .access key id half => s.answered key id half data
  | .other die tag half => s.servedOne die tag half err data
  | _ => s

/-- Count an uncorrectable or unserved response of a port (Table 12-13). -/
def State.countUncorr (s : State) (p : Nat) : State :=
  s.onCport p (fun c => { c with uncorr := satTo 255 (c.uncorr + 1) })

/-- Write the bytes of a granule that its byte enables name (R346). -/
def State.putEnabled (s : State) (addr : Nat) (d : Entry) (be : BitVec 64) : State :=
  if be = BitVec.allOnes 64 then s.putNat (cellarAt addr) 64 d.toNat
  else (List.range 64).foldl (fun s i =>
    if be.getLsbD i then s.putNat (cellarAt addr + i) 1 (bitsN d.toNat (8 * i) 8) else s) s

/-- What an access that failed leaves in a written granule: code 3 wrote nothing; otherwise its bytes are undefined (R295,
R349). -/
def State.writeLost (s : State) (g : Gran) (err : Nat) : State :=
  match g.wr with
  | none => s
  | some _ =>
    if err = 3 then s
    else
      let (e, s) := s.freeEntry
      s.putEnabled g.addr e g.be

/-- A granule that no port serves completes at once as if answered with code 3 (R351). -/
def State.unserved (s : State) (g : Gran) : State :=
  ((s.countUncorr (cellarPortOf g.addr)).granuleFault g 8).deliver g 3 none

/-! ### The class queues (R27, R250, R251, R272) -/

/-- The queue of a class: 0 read, 1 write, 2 remote. -/
def CellarPort.classQ (c : CellarPort) (k : Nat) : List Gran := if k = 0 then c.rdQ else if k = 1 then c.wrQ else c.rmQ

/-- A port with the queue of a class replaced. -/
def CellarPort.setQ (c : CellarPort) (k : Nat) (gs : List Gran) : CellarPort :=
  { c with rdQ := if k = 0 then gs else c.rdQ
           wrQ := if k = 1 then gs else c.wrQ
           rmQ := if k = 0 ∨ k = 1 then c.rmQ else gs }

/-- Whether an address lies in the cellar window, the die's only cellar range (R27). -/
def State.inWindow (s : State) (a : Nat) : Bool :=
  decide (s.shape.winBase * 2 ^ 20 ≤ a) && decide (a < (s.shape.winBase + s.shape.winSize) * 2 ^ 20)

/-- Note for a granule's access that one granule more, or less, waits for its class queue. -/
def State.waiter (s : State) (g : Gran) (f : Nat → Nat) : State :=
  match g.src with
  | .access key id _ => s.onAcc key id (fun a => { a with waits := f a.waits })
  | _ => s

/-- A granule joins its port's class queue, which takes 64; past that it waits for its place (R250, R251, Table 10-1). Outside
the window, or where the cellar is lost, no port is asked: it completes at once (R27, R351). -/
def State.enqueue (s : State) (g : Gran) : State :=
  if s.cellarLost || !s.inWindow g.addr then s.unserved g
  else
    let p := cellarPortOf g.addr
    if ((s.cport p).classQ g.cls).length < 64 then s.onCport p (fun c => c.setQ g.cls (c.classQ g.cls ++ [g]))
    else (s.onCport p (fun c => { c with waitQ := c.waitQ ++ [g] })).waiter g (fun n => n + 1)

/-- A class queue with room takes the oldest granule that waits for it. -/
def State.joinClass (s : State) (p k : Nat) : State :=
  let c := s.cport p
  match c.waitQ.find? (fun g => g.cls = k) with
  | none => s
  | some g =>
    if 64 ≤ (c.classQ k).length then s
    else (s.onCport p (fun c => { c.setQ k (c.classQ k ++ [g]) with waitQ := c.waitQ.erase g })).waiter g (fun n => n - 1)

/-- The granules at a port that have not been answered. -/
def CellarPort.all (c : CellarPort) : List Gran := c.rdQ ++ c.wrQ ++ c.rmQ ++ c.waitQ ++ c.tags.map (fun r => r.gran)

/-- Whether a granule of a kind is on its way at some port. -/
def State.onTheWay (s : State) (p : Gran → Bool) : Bool := (List.range 16).any (fun i => (s.cport i).all.any p)

/-- One granule of a granted access. -/
def Access.granuleOf (a : Access) (key addr half : Nat) (wr : Bool) : Gran :=
  { addr := addr, src := .access key a.id half, cls := b2n wr,
    wr := if wr then some (a.data.extractLsb' (512 * half) 512) else none }

/-- Whether a granule asks for a paragraph of a cluster. -/
def Gran.paraOf (g : Gran) (c : Nat) : Bool :=
  match g.src with
  | .para d => d = c
  | _ => false

/-- The sequencer of a cluster asks for the granules of n bytes of the cellar (R219, R251). -/
def State.fetchPara (s : State) (c addr n : Nat) : State :=
  (granulesOf addr n).foldl (fun s a => s.enqueue { addr := a, wr := none, src := .para c, cls := 0 }) s

/-- Whether a granule is of a cluster's stage copy. -/
def Gran.stageOf (g : Gran) (c : Nat) : Bool :=
  match g.src with
  | .stage d => d = c
  | _ => false

/-- The stage copy of a cluster asks for the granules of n bytes of the cellar (R291). -/
def State.fetchStage (s : State) (c addr n : Nat) : State :=
  (granulesOf addr n).foldl (fun s a => s.enqueue { addr := a, wr := none, src := .stage c, cls := 0 }) s

/-- A commit write of n bytes in the cellar: its granule is asked of the write class with the bytes' enables (R251, R346). -/
def State.commitWrite (s : State) (addr n v : Nat) : State :=
  s.enqueue { addr := addr / 64 * 64, wr := some (BitVec.ofNat 512 (v * 2 ^ (8 * (addr % 64)))), src := .commit, cls := 1,
              be := BitVec.ofNat 64 ((2 ^ n - 1) * 2 ^ (addr % 64)) }

end Sys2Proof.Machine
end

