-- ==== Sys2Proof/Machine/Objects.lean ====
section
/-! DEFINITION. Objects and fences: where the allocator puts them, their states, and the allocator verbs (09, 11). -/
namespace Sys2Proof.Machine

/-! ### Store rooms (R253, R254, R256) -/

/-- First number from n, of the next `fuel`, that passes. -/
def firstFrom (p : Nat → Bool) : Nat → Nat → Option Nat
  | 0, _ => none
  | fuel + 1, n => if p n then some n else firstFrom p fuel (n + 1)

/-- The store room of a tier in a partition, as a range of granules from the start of the tier's address space. -/
def State.room (s : State) (part tier : Nat) : Nat × Nat :=
  match tier with
  | 0 => (s.shelfWork part / 128, s.shelfSize / 128)
  | 1 => (s.larderWork part / 4096, s.larderSize / 4096)
  | _ => (((s.cellarRoom part).1 + 65535) / 65536, ((s.cellarRoom part).1 + (s.cellarRoom part).2) / 65536)

/-- Whether a descriptor slot holds storage. -/
def Obj.stored (o : Obj) : Bool := o.st = .live || o.st = .freed || o.st = .removed || o.st = .reclaim

/-- Granules of one version of an object; a fence holds its whole area (R309). -/
def State.lenOf (s : State) (o : Obj) : Nat := if o.fence then 1 else s.granules o.tier o.size

/-- The ranges of granules that an object holds. -/
def State.rangesOf (s : State) (o : Obj) : List (Nat × Nat) :=
  if o.stored then
    (o.base0, s.lenOf o) :: (if o.committed then [(o.base1, s.lenOf o)] else [])
  else []

/-- The ranges held in a tier: in a cluster for shelf and larder, on the die for the cellar. -/
def State.taken (s : State) (tier home : Nat) : List (Nat × Nat) :=
  ((s.objs.filter (fun p => p.2.tier = tier && (tier = 2 || p.2.home = home))).flatMap (fun p => s.rangesOf p.2)).eraseDups

/-- Whether a range of granules meets none of a list. -/
def clearOf (taken : List (Nat × Nat)) (lo len : Nat) : Bool := taken.all (fun r => lo + len ≤ r.1 || r.1 + r.2 ≤ lo)

/-- The lowest free range of a length within a room (R256). -/
def lowestFree (room : Nat × Nat) (taken : List (Nat × Nat)) (len : Nat) : Option Nat :=
  minOf ((room.1 :: taken.map (fun r => r.1 + r.2)).filter (fun lo =>
    room.1 ≤ lo && lo + len ≤ room.2 && clearOf taken lo len))

/-- Free granules of a room. -/
def freeGranules (room : Nat × Nat) (taken : List (Nat × Nat)) : Nat :=
  (room.2 - room.1) - taken.foldl (fun n r => n + (min (r.1 + r.2) room.2 - max r.1 room.1)) 0

/-- Zero granules of a tier (R256, R305). -/
def State.zeroGranules (s : State) (tier home base len : Nat) : State :=
  match tier with
  | 0 => s.each s.tilesOf (fun s t => s.clear (shelfAt (s.tileKey home t) (base * 128)) (len * 128))
  | 1 => s.clear (larderAt home (base * 4096)) (len * 4096)
  | _ => s.clear (cellarAt (s.winAddr (base * 65536))) (len * 65536)

/-- The lowest descriptor slot that may be taken (R256). -/
def State.freeSlot (s : State) : Option Nat := firstFrom (fun i => (s.obj i).st = .free) 65536 0

/-- Put an object into a slot: LIVE, at the slot's generation, 1 where that is 0 (R256, R305). -/
def State.install (s : State) (slot : Nat) (o : Obj) : State :=
  let g := (s.obj slot).gen
  s.setObj slot { o with gen := if g = 0 then 1 else g, st := .live }

/-- Allocate a scratch or committed object: the lowest free ranges, the lowest free slot, its bytes zero (R256). -/
def State.allocate (s : State) (o : Obj) : Option (Nat × State) :=
  let len := s.granules o.tier o.size
  let taken := s.taken o.tier o.home
  let room := s.room o.part o.tier
  match s.freeSlot, lowestFree room taken len with
  | some slot, some b0 =>
    if o.committed then
      match lowestFree room ((b0, len) :: taken) len with
      | none => none
      | some b1 =>
        let s := (s.zeroGranules o.tier o.home b0 len).zeroGranules o.tier o.home b1 len
        some (slot, s.install slot { o with base0 := b0, base1 := b1 })
    else some (slot, (s.zeroGranules o.tier o.home b0 len).install slot { o with base0 := b0 })
  | _, _ => none

/-! ### Fences (R309 to R311) -/

/-- Fences of one area. -/
def fencesPer (tier : Nat) : Nat := if tier = 1 then 64 else 1024

/-- The fence areas of a partition and tier, and home for larder: their granules, ascending. -/
def State.areas (s : State) (part tier home : Nat) : List Nat :=
  ((s.objs.filter (fun p => p.2.fence && p.2.stored && p.2.part = part && p.2.tier = tier && (tier = 2 || p.2.home = home))).map
    (fun p => p.2.base0)).eraseDups

/-- The free positions of a fence area. -/
def State.freePos (s : State) (tier home area : Nat) : Option Nat :=
  firstFrom (fun i => !s.objs.any (fun p =>
    p.2.fence && p.2.stored && p.2.tier = tier && (tier = 2 || p.2.home = home) && p.2.base0 = area && p.2.base1 = i))
    (fencesPer tier) 0

/-- The lowest-addressed area with a free position. -/
def State.areaWithRoom (s : State) (part tier home : Nat) : Option Nat :=
  minOf ((s.areas part tier home).filter (fun a => (s.freePos tier home a).isSome))

/-- Flat address of a fence. -/
def State.fenceAt (s : State) (o : Obj) : Nat :=
  if o.tier = 1 then larderAt o.home (o.base0 * 4096 + o.base1 * 64)
  else cellarAt (s.winAddr (o.base0 * 65536 + o.base1 * 64))

/-- Put a fence into its position: value 0, its owner in bytes 8 and 9 (Table 11-5). -/
def State.placeFence (s : State) (slot : Nat) (o : Obj) : State :=
  let s := s.install slot { o with fence := true, committed := false, size := 64 }
  let a := s.fenceAt o
  (s.clear a 64).putNat (a + 8) 2 (o.owner.toNat + 4096 * o.ownerDie)

/-- Allocate a fence: the lowest free position of the lowest area that has one, else a new area (R309). -/
def State.allocateFence (s : State) (o : Obj) : Option (Nat × State) :=
  match s.freeSlot with
  | none => none
  | some slot =>
    match s.areaWithRoom o.part o.tier o.home with
    | some area => (s.freePos o.tier o.home area).map (fun i => (slot, s.placeFence slot { o with base0 := area, base1 := i }))
    | none =>
      (lowestFree (s.room o.part o.tier) (s.taken o.tier o.home) 1).map (fun area =>
        (slot, (s.zeroGranules o.tier o.home area 1).placeFence slot { o with base0 := area, base1 := 0 }))

/-- The 64-bit word of a fence (Table 11-5): bit 63 is POISON. -/
def State.fenceWord (s : State) (slot : Nat) : Nat := memNat s.mem (s.fenceAt (s.obj slot)) 8

/-- The front port that admits a master: the lowest whose window holds it (R334). -/
def State.portOf (s : State) (m : Nat) : Option Nat :=
  (List.range 4).find? (fun f =>
    let p := s.port f
    p.en && Nat.land m p.midMask = Nat.land p.midBase p.midMask)

/-- The line on which changes of a fence pulse, if it is enabled on this die, and the port of its owner's master, if any has it
(R311, R343). -/
def State.lineOf (s : State) (slot : Nat) : Option (Nat × Option Nat) :=
  let o := s.obj slot
  let b := (memGet s.mem (s.fenceAt o + 10)).toNat
  if !bitN b 4 || o.ownerDie ≠ s.die then none
  else some (b % 16, s.portOf (s.ctx o.owner.toNat).master.toNat)

/-- A fence changed: its line is to pulse on its owner's master's port, if it is enabled (R311, R343). -/
def State.pulseFor (s : State) (slot : Nat) : State :=
  match s.lineOf slot with
  | none => s
  | some (_, none) => s.onPort 0 (fun p => { p with irqLost := satTo 255 (p.irqLost + 1) })
  | some (i, some f) => s.onPort f (fun p =>
      { p with irq := Tbl.set i { Tbl.get Irq.fresh p.irq i with want := true } p.irq })

/-- Whether a line is to pulse and has not begun. -/
def State.pulseDue (s : State) (f i : Nat) : Bool := (Tbl.get Irq.fresh (s.port f).irq i).want

/-- The completion of a task, due on a port, is not offered before the pulse of the fence that its commit advanced has begun
(R343). -/
def State.pulseBefore (s : State) (port k slot : Nat) : State :=
  match s.lineOf slot with
  | some (i, some f) =>
    if s.pulseDue f i then s.onPort port (fun p => { p with pulseFirst := (k, f, i) :: p.pulseFirst }) else s
  | _ => s

/-- The write of n bytes of a fence goes to its cellar port too, where the fence lies in the cellar (R251, R346); the engine itself
sees it at once (log 18). -/
def State.fencePort (s : State) (o : Obj) (off n v : Nat) : State :=
  if o.tier = 2 then s.commitWrite (s.winAddr (o.base0 * 65536 + o.base1 * 64) + off) n v else s

/-- Write bytes 0 to 7 of a fence as one write, with the sequence that changed it, where they change (R310, R311). -/
def State.writeFence (s : State) (slot v : Nat) (seq : Option Word) : State :=
  if s.fenceWord slot = v then s
  else
    let a := s.fenceAt (s.obj slot)
    let s := (s.putNat a 8 v).fencePort (s.obj slot) 0 8 v
    let s := match seq with
      | none => s
      | some q => (s.putNat (a + 12) 4 q.toNat).fencePort (s.obj slot) 12 4 q.toNat
    s.pulseFor slot

/-- Raise a fence to a value; it is never lowered, and POISON stays (R310). -/
def State.raiseFence (s : State) (slot v : Nat) (seq : Word) : State :=
  let w := s.fenceWord slot
  let old := w % 2 ^ 63
  if old < v % 2 ^ 63 then s.writeFence slot (w - old + v % 2 ^ 63) (some seq) else s

/-- Poison a fence: bit 63 set, the value kept (R310). -/
def State.poisonFence (s : State) (slot : Nat) : State :=
  let w := s.fenceWord slot
  s.writeFence slot (w % 2 ^ 63 + 2 ^ 63) none

/-! ### Handles (R303, R305) -/

/-- Whether a handle names a live object of this die, and which slot; a run sees the objects it has allocated (R259). -/
def State.live (s : State) (h : Word) (run : Option Nat) : Option Nat :=
  let i := handleSlot h
  let o := s.obj i
  if handleDie h = s.die && handleGen h != 0 && o.st = .live && o.gen = handleGen h && o.part = handlePart h && !o.hidden &&
      (o.draft.isNone || o.draft = run) then some i
  else none

/-- A handle as UNPIN, REF_DROP and DESC_READ take it: also of an object freed or removed since, by its old or its present
handle, while something holds it (R326; log 19). -/
def State.known (s : State) (h : Word) : Option Nat :=
  match s.live h none with
  | some i => some i
  | none =>
    let i := handleSlot h
    let o := s.obj i
    let before := if o.gen = 0 then 511 else o.gen - 1
    if handleDie h = s.die && handleGen h != 0 && (o.st = .freed || o.st = .removed) && o.part = handlePart h &&
        (handleGen h = o.gen || handleGen h = before) then some i
    else none

/-! ### The states of an object (Table 11-4) -/

/-- An object with no references and no readers left goes on to RECLAIM (R305). -/
def State.settleObj (s : State) (slot : Nat) : State :=
  let o := s.obj slot
  if (o.st = .freed || o.st = .removed) && o.refs = 0 && o.readers0 = 0 && o.readers1 = 0 then
    s.setObj slot { o with st := .reclaim }
  else s

/-- The next generation (R256, R305). -/
def nextGen (g : Nat) : Nat := if g = 511 then 0 else if g = 0 then 0 else g + 1

/-- A live object becomes FREED or REMOVED: its generation advances at once (R305, R326). -/
def State.dropObj (s : State) (slot : Nat) (st : ObjSt) : State :=
  let o := s.obj slot
  if o.st = .live then (s.setObj slot { o with st := st, gen := nextGen o.gen, draft := none }).settleObj slot else s

/-- Take references from objects (R306). -/
def State.dropRefs (s : State) (slots : List Nat) : State :=
  s.each slots (fun s i => (s.onObj i (fun o => { o with refs := o.refs - 1 })).settleObj i)

/-- Add references to objects. -/
def State.addRefs (s : State) (slots : List Nat) : State := s.each slots (fun s i => s.onObj i (fun o => { o with refs := o.refs + 1 }))

/-- Whether an object still belongs to a context. -/
def Obj.ownedBy (o : Obj) (die : Nat) (id : BitVec 12) : Bool := o.stored && o.owner = id && o.ownerDie = die

/-- The tasks of a context. -/
def State.tasksOf (s : State) (die : Nat) (id : BitVec 12) : List Nat :=
  (s.tasks.filter (fun p => p.2.die = die && p.2.ctx = id)).map Prod.fst

/-- Commands of a queue that are accepted and not retired (Table 11-12). -/
def State.pendingOf (s : State) (q : Nat) : List (Nat × Task) := s.tasks.filter (fun p => p.2.die = s.die && p.2.queue = q)

/-- Queues bound to a context of this die. -/
def State.queuesOf (s : State) (id : BitVec 12) : List Nat :=
  (s.queues.filter (fun p => p.2.ctx = id && (p.2.st = .open_ || p.2.st = .blocked || p.2.st = .draining))).map Prod.fst

/-- An empty queue, back to IDLE; its limits and rates stay. -/
def HostQ.toIdle (q : HostQ) : HostQ :=
  { q with st := .idle, ctx := 0, block := 0, waiting := [], fails := 0, urgent := false, asked := [], got := [] }

/-- Free every live object that a context of this die owns. -/
def State.freeOwned (s : State) (id : BitVec 12) : State :=
  (s.objs.filter (fun p => p.2.ownedBy s.die id && p.2.draft.isNone)).foldl (fun s p => s.dropObj p.1 .freed) s

/-- A lost context goes on when every task of it has retired: DRAINING to LOST, with a held reset to LIVE; TEARDOWN to FREE, once
every object it owns is freed, those among them that a last commit had allocated (R299, R300). Its queues are open again after a
reset and idle after a teardown (Table 11-8). -/
def State.settleCtx (s : State) (id : BitVec 12) : State :=
  let k := id.toNat
  let busy := s.tasksOf s.die id ≠ []
  let s := if (s.ctx k).st = .teardown && !busy then s.freeOwned id else s
  let x := s.ctx k
  if busy then s
  else if x.st = .draining then
    if x.resetPend then
      let s := s.setCtx k { x with st := .live, resetPend := false, stall := [], stream := none, trap := [0, 0, 0, 0],
                                   escSat := 0, allocFail := 0 }
      s.each (s.queuesOf id) (fun s q => s.onQueue q (fun y => { y with st := .open_, block := 0 }))
    else s.setCtx k { x with st := .lost }
  else if x.st = .teardown && !s.objs.any (fun p => p.2.ownedBy s.die id) then
    let s := s.each (s.queuesOf id) (fun s q => s.onQueue q HostQ.toIdle)
    s.setCtx k { x with st := .free, poisonDue := false }
  else s

/-- RECLAIM_DONE: the storage is zeroed; the slot is FREE, or RETIRED where its generation ran out, of the partition and tier whose
store room its object had (R256, R305). -/
def execReclaimDone (slot : BitVec 16) (s : State) : Out :=
  let i := slot.toNat
  let o := s.obj i
  if o.st ≠ .reclaim then .next s
  else
    let s := if o.fence then s.clear (s.fenceAt o) 64
      else (s.rangesOf o).foldl (fun s r => s.zeroGranules o.tier o.home r.1 r.2) s
    let s := s.setObj i { Obj.fresh with part := o.part, gen := o.gen, tier := o.tier, st := if o.gen = 0 then .retired else .free }
    .next (if o.ownerDie = s.die then s.settleCtx o.owner else s)

/-! ### Versions (R261 to R263, R267) -/

/-- Whether a task is past its commit point (R267). -/
def State.committed (s : State) (k : Nat) : Bool :=
  match s.task? k with
  | none => false
  | some t => t.life = .committing

/-- The version of an object that a resolution now takes as current (R267). -/
def State.current (s : State) (o : Obj) : Bool :=
  match o.writer with
  | some k => if s.committed k then !o.vsel else o.vsel
  | none => o.vsel

/-- Whether an output of a committed object holds a task at dispatch (R263). -/
def State.heldBy (s : State) (k : Nat) (o : Obj) : Bool :=
  o.committed &&
    ((match o.writer with
      | some w => w ≠ k && (s.task? w).isSome
      | none => false) ||
     (if s.current o then o.readers0 != 0 || o.pins0 != 0 else o.readers1 != 0 || o.pins1 != 0))

/-! ### The allocator verbs (R257 to R259) -/

/-- ALLOC (R257). -/
def execAlloc (at_ : Place) (s : State) : Out := .next (s.askAllocator at_ 0x18)
/-- FREE (R257). -/
def execFree (at_ : Place) (s : State) : Out := .next (s.askAllocator at_ 0x19)
/-- BIND (R257, R258). -/
def execBind (at_ : Place) (s : State) : Out := .next (s.askAllocator at_ 0x1A)
/-- AVAIL (R257). -/
def execAvail (at_ : Place) (s : State) : Out := .next (s.askAllocator at_ 0x1B)

/-- What ALLOC does in a cluster of a task. -/
def State.allocVerb (s : State) (c k : Nat) (t : Task) (size imm : Nat) : Word × State :=
  let tier := imm % 4
  let key := s.ctxKey t.die t.ctx.toNat
  let o : Obj := { Obj.fresh with part := t.part, owner := t.ctx, ownerDie := t.die, tier := tier, committed := bitN imm 2,
                                  home := if tier = 2 then 0 else c, size := size, refs := 1, draft := some k }
  match (if size = 0 then none else s.allocate o) with
  | none => (0, s.onCtx key (fun x => { x with allocFail := satTo (2 ^ 32 - 1) (x.allocFail + 1) }))
  | some (i, s) => (s.handle i, s.onTask k (fun t => { t with allocs := t.allocs ++ [i], refs := t.refs ++ [i] }))

/-- Whether a handle of another die may name an object there: its generation is valid, and that die has the partition. -/
def State.maybeThere (s : State) (h : Word) : Bool :=
  handleGen h != 0 && Tbl.get 0 s.peers (8 * handleDie h + handlePart h) != 0 && !s.lostDies.contains (handleDie h)

/-- One of the codes another die may answer, by a free value (log 17). -/
def State.oneOf (s : State) (codes : List Nat) : Word × State :=
  (BitVec.ofNat 32 (codes.getD ((Config.freeWord s.free).toNat % codes.length) 0), { s with free := s.free + 1 })

/-- What FREE does. -/
def State.freeVerb (s : State) (k : Nat) (t : Task) (h : Word) : Word × State :=
  if handleDie h ≠ s.die then
    if !s.maybeThere h then (1, s) else s.oneOf (if handlePart h = t.part then [0, 1, 2, 3] else [1, 2])
  else
    match s.live h (some k) with
    | none => (1, s)
    | some i =>
      let o := s.obj i
      if o.owner ≠ t.ctx || o.ownerDie ≠ t.die then (2, s)
      else if t.frees.contains i then (3, s)
      else (0, s.onTask k (fun t => { t with frees := t.frees ++ [i] }))

/-- Whether a committed object of this die lies on the task's commit die: 0 yes, 1 no, 2 unknown here, where outputs on another
die may be committed ones (R258, R264; log 17). -/
def State.offCommitDie (s : State) (t : Task) : Nat :=
  if t.objs.any (fun e => e.2 && handleDie e.1 = s.die && (s.obj (handleSlot e.1)).committed) then 0
  else if t.die ≠ s.die then 1
  else if t.objs.any (fun e => e.2 && handleDie e.1 ≠ s.die) then 2
  else 0

/-- What BIND does (R258, R459). -/
def State.bindVerb (s : State) (c k : Nat) (t : Task) (h : Word) (idx : Nat) : Word × State :=
  let entry (ver : Bool) : Named :=
    { idx := idx, die := handleDie h, slot := handleSlot h, output := true, ver := ver, bound := some [c] }
  let used := t.named.any (fun n => n.idx = idx)
  if handleDie h ≠ s.die then
    let codes := if handlePart h ≠ t.part then [1, 2] else if used then [1, 2, 4] else [0, 1, 2, 5]
    let (w, s) := if s.maybeThere h then s.oneOf codes else (1, s)
    if w = 0 then
      let n := s.free
      let far : Named := { entry ((Config.freeWord n).getLsbD 0) with
        size := (Config.freeWord (n + 1)).toNat, tier := (Config.freeWord (n + 2)).toNat % 3 }
      (0, { s.onTask k (fun t => { t with named := t.named ++ [far] }) with free := n + 3 })
    else (w, s)
  else
    match s.live h (some k) with
    | none => (1, s)
    | some i =>
      let o := s.obj i
      if o.policy.isSome then (1, s)
      else if o.owner ≠ t.ctx || o.ownerDie ≠ t.die then (2, s)
      else if used then (4, s)
      else if s.heldBy k o || (o.committed && s.offCommitDie t = 1) then (5, s)
      else
        let (w, s) := if o.committed && s.offCommitDie t = 2 then s.oneOf [0, 5] else (0, s)
        if w ≠ 0 then (w, s) else
        let s := if o.committed then s.setObj i { o with writer := some k } else s
        (0, s.onTask k (fun t => { t with named := t.named ++ [entry (o.committed && !s.current o)] }))

/-- What AVAIL answers. -/
def State.availVerb (s : State) (c : Nat) (t : Task) (tier : Nat) : Word :=
  BitVec.ofNat 32 (satTo (2 ^ 32 - 1) (freeGranules (s.room t.part tier) (s.taken tier c)))

/-- The oldest allocator verb of a cluster acts, once every tile has issued it: in the lowest tile whose condition holds,
for every tile whose condition holds (R257). -/
def State.runAllocator (s : State) (c : Nat) : State :=
  match (s.cluster c).areq, (s.cluster c).task, s.clusterTask c with
  | r :: _, some k, some t =>
    let same := (s.cluster c).areq.filter (fun q => q.seq = r.seq)
    if same.length ≠ s.tpc then s
    else
      let s := s.onCluster c (fun x => { x with areq := x.areq.filter (fun q => q.seq ≠ r.seq) })
      let acting := same.filter (fun q => q.acts)
      match minOf (acting.map (fun q => q.tile)) with
      | none => s
      | some lead =>
        let src := ((acting.find? (fun q => q.tile = lead)).map (fun q => q.src)).getD 0
        let (w, s) := (match r.verb with
          | 0x18 => s.allocVerb c k t src.toNat r.imm
          | 0x19 => s.freeVerb k t src
          | 0x1A => s.bindVerb c k t src (r.imm % 64)
          | _ => (s.availVerb c t (r.imm % 4), s))
        s.onCluster c (fun x => { x with ares := x.ares ++ acting.map (fun q => (q.tile, q.cdst, w)) })
  | _, _, _ => s

/-- ALLOCATOR_RESULT_ARRIVE: the verb has acted, and its result arrives in the tile's counter (R257). -/
def execAllocatorResultArrive (at_ : Place) (s : State) : Out :=
  let c := at_.cl.val
  let t := at_.tile.val
  let s := if (s.cluster c).phase = .running then s.runAllocator c else s
  match (s.cluster c).ares.find? (fun r => r.1 = t) with
  | none => .next s
  | some (_, ctr, w) =>
    let s := s.onCluster c (fun x => { x with ares := x.ares.erase (t, ctr, w) })
    .next (s.onTile c t (fun x => { x.setCounter ctr w with ctWait := x.ctWait.filter (fun p => p.2 ≠ ctr) }))

end Sys2Proof.Machine
end

