-- ==== Sys2Proof/Machine/Lifecycle.lean ====
section
/-! DEFINITION. How tasks retire and contexts are lost, what an unplanned loss of capacity does, and the fault log (11, 15). -/
namespace Sys2Proof.Machine

/-! ### Status codes (Table 11-10) -/

/-- DONE -/
def stDone : Nat := 0x00
/-- DONE_RETRIED -/
def stRetried : Nat := 0x01
/-- REJECTED_RANGE -/
def stRange : Nat := 0x10
/-- REJECTED_HANDLE -/
def stHandle : Nat := 0x11
/-- UNIT_ABSENT -/
def stAbsent : Nat := 0x12
/-- REJECTED_FULL -/
def stFull : Nat := 0x13
/-- ABORTED_STREAM -/
def stStream : Nat := 0x20
/-- NAN_TRAP -/
def stNan : Nat := 0x21
/-- TIMEOUT -/
def stTimeout : Nat := 0x22
/-- WAIT_CYCLE -/
def stCycle : Nat := 0x23
/-- FENCE_POISONED -/
def stPoisoned : Nat := 0x24
/-- CAPACITY_REMOVED -/
def stCapacity : Nat := 0x25
/-- COOLANT_STOP -/
def stCoolant : Nat := 0x26
/-- CONTEXT_LOST -/
def stLost : Nat := 0x30
/-- UNCORRECTABLE -/
def stUncorrectable : Nat := 0x31

/-! ### The fault log (R442) -/

/-- Write the next FAULT_LOG entry, over the oldest (R442). -/
def State.logFault (s : State) (e : LogEntry) : State :=
  { s with faults := { s.faults with log := Tbl.set s.faults.next e s.faults.log, next := (s.faults.next + 1) % 16 } }

/-- A log entry of a task's fault. -/
def Task.entryFor (t : Task) (cls action cl tile cell wher : Nat) : LogEntry :=
  { seq := t.seq, ctx := t.ctx, cl := cl, tile := tile, cls := cls, action := action, attempt := t.rerun, cell := cell,
    where_ := wher }

/-- A log entry of an event without a run. -/
def eventEntry (cls action cl wher : Nat) : LogEntry :=
  { seq := 0, ctx := 0, cl := cl, tile := 31, cls := cls, action := action, attempt := false, cell := 0xFF, where_ := wher }

/-! ### Completions (R321, R339) -/

/-- The commit die of a task (R258, R264): the die of its committed outputs, else its own; whether an output on another die is
committed is a free value (log 17). -/
def State.commitDie (s : State) (t : Task) : Nat :=
  if s.offCommitDie t ≠ 2 then s.die
  else
    match t.objs.find? (fun e => e.2 && handleDie e.1 ≠ s.die) with
    | some e => if (Config.freeWord s.free).getLsbD 0 then handleDie e.1 else s.die
    | none => s.die

/-- What word 3 of a completion record sums up: ILLEGAL, SEQERR and WARN. The engine gathers what the task's clusters on other
dies have counted; no message of Table 18-2 carries it, and it is a free value here (R321, log 17). -/
def State.checks (s : State) (t : Task) : Nat :=
  if t.layout.any (fun d => d.1 ≠ s.die) then
    (Config.freeWord (s.free + 1)).toNat % 65536 + (Config.freeWord (s.free + 2)).toNat % 256 * 2 ^ 16 +
      (Config.freeWord (s.free + 3)).toNat % 2 * 2 ^ 24
  else t.illegal + t.seqErr * 2 ^ 16 + b2n t.warn * 2 ^ 24

/-- The completion record of a task (Table 11-9). -/
def State.record (s : State) (t : Task) (status : Nat) : BitVec 128 :=
  BitVec.ofNat 128
    (t.seq.toNat + (status + t.queue * 2 ^ 16) * 2 ^ 32 + (t.ctx.toNat + s.commitDie t * 2 ^ 12) * 2 ^ 64 + s.checks t * 2 ^ 96)

/-- Post a task's completion on the port of its SUBMIT; a hung port drops it (R321, R339, R345). -/
def State.post (s : State) (t : Task) (status : Nat) : State :=
  if (s.port t.port).hung then s
  else
    let beat : RespBeat := { op := 0x10, tag := t.tag, mid := t.mid, kind := 1, status := status, result := 0,
                             record := s.record t status }
    { s with free := s.free + 4 }.onPort t.port (fun p => { p with posted := p.posted ++ [(t.key, beat)] })

/-- The dies of a partition other than this one (log 21). -/
def State.otherDies (s : State) (part : Nat) : List Nat :=
  (List.range 16).filter (fun d => d ≠ s.die && Tbl.get 0 s.peers (8 * d + part) != 0 && !s.lostDies.contains d)

/-- The other dies of a cluster's partition are told that it has fallen idle (R318). -/
def State.tellIdle (s : State) (c : Nat) : State :=
  if (s.cluster c).task.isNone && (s.cluster c).phase = .idle then
    (s.otherDies (s.shape.part c)).foldl (fun s d => s.send d (.idle (s.shape.part c))) s
  else s

/-- A cluster falls idle, unless its spare is to be released at this task boundary (R426). -/
def State.freeCluster (s : State) (c : Nat) : State :=
  (s.onCluster c (fun x =>
    { x with task := none, phase := if x.phase = .copying || x.spare.release then .copying else .idle })).tellIdle c

/-- The task that started early behind a task and still runs, if a cluster is to start it too (R285). -/
def State.heirOf (s : State) (k c : Nat) : Option Nat :=
  (s.tasks.find? (fun f => f.2.after = some k && f.2.life = .running && f.2.clusters.contains c && !f.2.started.contains c &&
    (s.cluster c).stageFor.isNone)).map Prod.fst

/-- A cluster leaves a task that retires: it stays for the follow-on that is to start there, else it falls idle (R285). -/
def State.leaveCluster (s : State) (k c : Nat) : State :=
  match s.heirOf k c with
  | some f => s.onCluster c (fun x =>
      { x with task := some f, phase := if x.phase = .copying || x.spare.release then .copying else .ended })
  | none => s.freeCluster c

/-- Free the clusters that a task holds, and what is staged for it. -/
def State.freeClusters (s : State) (k : Nat) : State :=
  let s := s.each (s.holding k) (fun s c => s.leaveCluster k c)
  s.each (List.range 32) (fun s c =>
    if (s.cluster c).stageFor = some k then s.onCluster c (fun x => { x with stageFor := none, staged := false }) else s)

/-- The committed objects of this die that a task reads, once each, with the version it reads (R262). Entries 64 to 66 of
`named` are the paragraph, the object list and the weight object. -/
def State.reads (s : State) (t : Task) : List (Nat × Bool) :=
  ((t.named.filter (fun n => n.die = s.die && !n.output && (s.obj n.slot).committed)).map (fun n => (n.slot, n.ver))).eraseDups

/-- Add a reader to a version, or take one away (R262, R307). -/
def Obj.addReader (o : Obj) (ver : Bool) : Obj :=
  if ver then { o with readers1 := o.readers1 + 1 } else { o with readers0 := o.readers0 + 1 }

/-- Take a reader from a version. -/
def Obj.dropReader (o : Obj) (ver : Bool) : Obj :=
  if ver then { o with readers1 := o.readers1 - 1 } else { o with readers0 := o.readers0 - 1 }

/-- A task's readers and writers leave the objects of this die that it resolved (R262, R265). -/
def State.unresolve (s : State) (k : Nat) (t : Task) : State :=
  let s := (s.reads t).foldl (fun s r => (s.onObj r.1 (fun o => o.dropReader r.2)).settleObj r.1) s
  t.named.foldl (fun s n =>
    if n.die = s.die ∧ n.output ∧ (s.obj n.slot).writer = some k then s.onObj n.slot (fun o => { o with writer := none }) else s) s

/-- The head of a queue leaves it: the queue is open again (Table 11-8). -/
def HostQ.without (q : HostQ) (k : Nat) : HostQ :=
  let head := q.waiting.head? = some k
  let q := { q with waiting := q.waiting.filter (fun w => w ≠ k) }
  if head then
    { q with st := if q.st = .blocked then .open_ else q.st, block := 0, fails := 0, urgent := false, asked := [], got := [] }
  else q

/-- Let go of the clusters gathered here for a queue's head (R318). -/
def State.ungather (s : State) (q : Nat) : State :=
  let s := s.each (List.range 32) (fun s c =>
    if (s.cluster c).resv = some (s.die * 1024 + q) then s.onCluster c (fun x => { x with resv := none }) else s)
  let s := (s.queue q).got.foldl (fun s d => if d.2 = 0 then s else s.send d.1 (.cancel none)) s
  s.onQueue q (fun y => { y with asked := [], got := [] })

/-- An urgent head leaves its queue: the dies of its partition that reserved nothing for it are told that the request is over
(R318, log 21). -/
def State.endUrgent (s : State) (q part : Nat) : State :=
  if (s.queue q).urgent then
    ((s.otherDies part).filter (fun d => !(s.queue q).got.any (fun g => g.1 = d && g.2 ≠ 0))).foldl (fun s d =>
      s.send d (.cancel none)) s
  else s

/-! ### Scratch bytes of a task that does not commit (R270) -/

/-- The scratch bytes that a task wrote hold undefined values once it has ended without committing (R270). -/
def State.freeScratch (s : State) (t : Task) : State :=
  t.writes.foldl (fun s r =>
    let s := (List.range r.2).foldl (fun s i =>
      if s.scratchAt (r.1 + i) then s.putNat (r.1 + i) 1 (Config.freeWord (s.free + i)).toNat else s) s
    { s with free := s.free + r.2 }) s

/-- The other dies that hold clusters of a task of this die are told that it has ended here (R318, log 21). -/
def State.tellEnd (s : State) (t : Task) : State :=
  if t.die = s.die then (t.layout.filter (fun d => d.1 ≠ s.die)).foldl (fun s d => s.send d.1 (.cancel (some t.key))) s else s

/-- A task retires: its completion is posted, its references, readers, writers and clusters go (R306, R321); where it did not
commit, the scratch bytes it wrote are undefined (R270). -/
def State.retire (s : State) (k status : Nat) : State :=
  match s.task? k with
  | none => s
  | some t =>
    let s := if 2 ≤ status then (s.freeScratch t).tellEnd t else s
    let s := s.unresolve k t
    let s := { s with tasks := Tbl.del k s.tasks }
    let s := s.freeClusters k
    if t.die = s.die then
      let s := s.post t status
      let s := s.dropRefs t.refs
      let s := if (s.queue t.queue).waiting.head? = some k then (s.endUrgent t.queue t.part).ungather t.queue else s
      let s := s.onQueue t.queue (fun q => q.without k)
      let s := { s with faults := { s.faults with
        uncorr := if status = stUncorrectable then satTo 255 (s.faults.uncorr + 1) else s.faults.uncorr
        capRem := if status = stCapacity then satTo 255 (s.faults.capRem + 1) else s.faults.capRem
        stream := if status = stStream then satTo 255 (s.faults.stream + 1) else s.faults.stream } }
      s.settleCtx t.ctx
    else s.dropRefs t.refs

/-- What a run allocated is reclaimed and what it freed is undone (R259, R268). -/
def State.undo (s : State) (k : Nat) : State :=
  match s.task? k with
  | none => s
  | some t =>
    let s := s.dropRefs (t.refs.filter (fun i => t.allocs.contains i))
    let s := s.each t.allocs (fun s i => s.dropObj i .freed)
    let bound := t.named.filter (fun n => n.bound.isSome)
    let s := bound.foldl (fun s n =>
      if n.die = s.die ∧ (s.obj n.slot).writer = some k ∧ !t.named.any (fun m => m.bound.isNone && m.output && m.slot = n.slot) then
        s.onObj n.slot (fun o => { o with writer := none })
      else s) s
    s.onTask k (fun t =>
      { t with refs := t.refs.filter (fun i => !t.allocs.contains i), allocs := [], frees := [], wrote := t.writes,
               named := t.named.filter (fun n => n.bound.isNone), log := [], nans := [], reports := [], stops := 0 })

/-! ### Loss of a context (R323) -/

/-- Insert a task among others of its die, older ones first: a higher sequence is younger, across the wrap too (R315). -/
def State.insertOld (s : State) (k : Nat) : List Nat → List Nat
  | [] => [k]
  | j :: r =>
    let age (i : Nat) : Nat := ((s.task? i).map (fun t => (s.taskSeq - t.seq).toNat)).getD 0
    if age j < age k then k :: j :: r else j :: s.insertOld k r

/-- Tasks of this die in acceptance order (R315). -/
def State.byAge (s : State) (ks : List Nat) : List Nat := ks.foldl (fun l k => s.insertOld k l) []

/-- Lose a context: its queues drain, its running tasks abort, its pending tasks retire in acceptance order, its fences are
due for poison; a teardown frees its objects (R300, R323). The listed tasks retire with a status of their own. -/
def State.loseCtx (s : State) (id : BitVec 12) (cause : Nat) (teardown : Bool) (except : List Nat) : State :=
  let k := id.toNat
  let x := s.ctx k
  if x.st = .free || x.st = .teardown || (x.st ≠ .live && !teardown) then s
  else
    let due := x.poisonDue || s.objs.any (fun p => p.2.fence && p.2.ownedBy s.die id)
    let s := s.setCtx k { x with st := if teardown then .teardown else .draining, cause := cause, resetPend := false,
                                 poisonDue := due }
    let s := s.each (s.queuesOf id) (fun s q => s.onQueue q (fun y => { y with st := .draining, block := 0 }))
    let mine := (s.tasksOf s.die id).filter (fun t => !except.contains t)
    let s := s.each mine (fun s t => s.abortRun t .lost)
    let pending := s.byAge (mine.filter (fun t => (s.task? t).any (fun y => y.life = .pending)))
    let s := s.each pending (fun s t => s.retire t stLost)
    let s := if teardown then s.freeOwned id else s
    s.settleCtx id

/-- FENCE_POISON: a lost context's commits and aborts have ended, and every fence it owns is poisoned (R323, step 5); tasks that
the context has accepted since its reset are not waited for. -/
def execFencePoison (context : BitVec 12) (s : State) : Out :=
  let k := context.toNat
  let x := s.ctx k
  if !x.poisonDue || (x.st ≠ .live && s.tasksOf s.die context ≠ []) then .next s
  else
    let fences := s.objs.filter (fun p => p.2.fence && p.2.ownedBy s.die context && p.2.st ≠ .reclaim)
    let s := fences.foldl (fun s p => s.poisonFence p.1) s
    .next ((s.setCtx k { s.ctx k with poisonDue := false }).settleCtx context)

/-- Post a status and lose the task's context for it; `cause` as in CTX_STATE (R322, R323). -/
def State.endAndLose (s : State) (k status cause : Nat) : State :=
  match s.task? k with
  | none => s
  | some t =>
    let s := s.retire k status
    if t.die = s.die then s.loseCtx t.ctx cause false [] else s

/-! ### Unplanned losses (R439, R440) -/

/-- Whether a task names one of a list of slots of this die. -/
def Task.names (t : Task) (die : Nat) (slots : List Nat) : Bool :=
  t.refs.any (fun i => slots.contains i) || t.named.any (fun n => n.die = die && slots.contains n.slot)

/-- Active clusters of a partition in service, on this die and the others. -/
def State.capacity (s : State) (part : Nat) : Nat :=
  ((List.range 32).filter (fun c => s.active c && !bitN s.faults.out.toNat (c / 4) && s.shape.part c = part)).length +
    ((List.range 16).filter (fun d => d ≠ s.die && !s.lostDies.contains d)).foldl (fun n d => n + Tbl.get 0 s.peers (8 * d + part)) 0

/-- Objects are removed, and every task that names one or holds a lost cluster ends CAPACITY_REMOVED with its context lost
(R42, R440). -/
def State.removeObjs (s : State) (slots clusters : List Nat) : State :=
  let hit := (s.tasks.filter (fun p => p.2.life ≠ .committing &&
    (p.2.names s.die slots || (p.2.life ≠ .pending && p.2.clusters.any (fun c => clusters.contains c))))).map (fun p => (p.1, p.2))
  let s := s.each slots (fun s i => s.dropObj i .removed)
  let keys := hit.map Prod.fst
  hit.foldl (fun s p =>
    let s := if p.2.life = .pending then s.retire p.1 stCapacity else s.abortRun p.1 .capacity
    if p.2.die = s.die then s.loseCtx p.2.ctx 3 false keys else s) s

/-- Pending tasks that need more clusters than remain end CAPACITY_REMOVED (R440, step 2). -/
def State.endTooLarge (s : State) : State :=
  let hit := s.tasks.filter (fun p => p.2.life = .pending && p.2.die = s.die && s.capacity p.2.part < p.2.ncluster)
  hit.foldl (fun s p => (s.retire p.1 stCapacity).loseCtx p.2.ctx 3 false (hit.map Prod.fst)) s

/-- An unplanned loss is counted and logged (R439, R442). -/
def State.noteLoss (s : State) (cl : Nat) : State :=
  ({ s with faults := { s.faults with lost := satTo 255 (s.faults.lost + 1) } }).logFault (eventEntry 14 5 cl 0)

/-- An unplanned loss of clusters with everything homed there (R439, R440). -/
def State.loseClusters (s : State) (clusters : List Nat) : State :=
  let slots := (s.objs.filter (fun p => p.2.st = .live && p.2.tier ≠ 2 && clusters.contains p.2.home)).map Prod.fst
  ((s.noteLoss (clusters.headD 0)).removeObjs slots clusters).endTooLarge

/-- The die's cellar is lost (R351, R439). -/
def State.loseCellar (s : State) : State :=
  let slots := (s.objs.filter (fun p => p.2.st = .live && p.2.tier = 2)).map Prod.fst
  (({ s with cellarLost := true }).noteLoss 0).removeObjs slots []

/-- Dies that no route reaches are lost from this die's view: objects there are removed, runs with clusters there end, and
contexts whose home they are (R439, R440). -/
def State.loseDie (s : State) (die : Nat) : State :=
  if s.lostDies.contains die || die = s.die then s
  else
    let s := { s with lostDies := die :: s.lostDies }.noteLoss 0
    let hit := s.tasks.filter (fun p => p.2.life ≠ .committing && p.2.die = s.die &&
      (p.2.layout.any (fun d => d.1 = die) || p.2.named.any (fun n => n.die = die) || handleDie p.2.paragraph = die ||
        p.2.objs.any (fun o => handleDie o.1 = die)))
    let s := hit.foldl (fun s p =>
      let s := if p.2.life = .pending then s.retire p.1 stCapacity else s.abortRun p.1 .capacity
      s.loseCtx p.2.ctx 3 false (hit.map Prod.fst)) s
    let theirs := s.tasks.filter (fun p => p.2.die = die)
    (theirs.foldl (fun s p => s.abortRun p.1 .lost) s).endTooLarge

end Sys2Proof.Machine
end

