-- ==== Sys2Proof/Machine/Sequencer.lean ====
section
/-! DEFINITION. Sequencers, mailboxes and punctuation (08). A clause passes through the steps of `SeqStep` in the order of
R223; SEQCTL operations other than NONE have commands of their own. -/
namespace Sys2Proof.Machine

/-- PUNCT of a clause (R148). -/
def clausePunct (w : BitVec 256) : Nat := bitsN w.toNat 9 2
/-- SEQCTL.OP of a clause (R222). -/
def clauseOp (w : BitVec 256) : Nat := bitsN w.toNat 11 3
/-- SEQCTL.ARG of a clause. -/
def clauseArg (w : BitVec 256) : Nat := bitsN w.toNat 14 5

/-- The clause that the sequencer stands at. -/
def Cluster.word (x : Cluster) : BitVec 256 := x.para.getD x.next 0

/-- A sequencer value; indices wrap modulo 32 (R222). -/
def Cluster.value (x : Cluster) (n : Nat) : Word := Tbl.get 0 x.sv (n % 32)

/-- Whether a sequencer stands at a step with an operation in hand. -/
def Cluster.at_ (x : Cluster) (step : SeqStep) (op : Nat) : Bool :=
  x.phase = .running && !x.paraEnded && x.step = step && clauseOp x.word = op

/-- The step after the barrier of a clause: RECV and MASK come before its broadcast (R223). -/
def afterBarrier (w : BitVec 256) : SeqStep := if clauseOp w = 3 ∨ clauseOp w = 5 then .pre else .body

/-- The sequencer goes to clause n; past the last one the paragraph ends (R223). -/
def Cluster.goto (x : Cluster) (n : Nat) : Cluster :=
  let x := { x with next := n }
  if x.para.length ≤ n then { x with paraEnded := true, step := .post }
  else { x with step := if clausePunct x.word = 0 then afterBarrier x.word else .barrier }

/-- Record a sequencer error (R225, R244). -/
def Cluster.seqError (x : Cluster) (cause : Nat) : Cluster :=
  let x := { x with seqErrs := satTo 255 (x.seqErrs + 1) }
  if x.seqErrValid then x else { x with seqErrValid := true, seqCause := cause, seqErrAt := x.next }

/-- Record a sequencer error in the cluster and in the task's sum (R321). -/
def State.seqError (s : State) (c cause : Nat) : State :=
  let s := s.onCluster c (fun x => x.seqError cause)
  match (s.cluster c).task with
  | none => s
  | some k => s.onTask k (fun t => { t with seqErr := satTo 255 (t.seqErr + 1) })

/-- The last clause acts as the ENDL of each loop that has none, innermost first (R224). -/
def closeOpen (last : Nat) : List Loop → Nat → Nat × List Loop
  | [], n => (n, [])
  | l :: r, n =>
    if l.last ≠ last then (n, l :: r)
    else if l.left ≤ 1 then closeOpen last r n
    else (l.body, { l with left := l.left - 1 } :: r)

/-- The sequencer goes on with clause n, where no jump is taken; where n is past the last clause, that one acts as the ENDL of
every open loop that has none (R224). -/
def Cluster.after (x : Cluster) (n : Nat) : Cluster :=
  if n = x.para.length then
    let p := closeOpen (n - 1) x.loops n
    { x with loops := p.2 }.goto p.1
  else x.goto n

/-- Address of the ENDL that matches a LOOP, counting LOOP and ENDL in clause order (R224). -/
def matchEndl : List (BitVec 256) → Nat → Nat → Option Nat
  | [], _, _ => none
  | w :: r, n, d =>
    if clauseOp w = 1 then matchEndl r (n + 1) (d + 1)
    else if clauseOp w = 2 then (if d = 0 then some n else matchEndl r (n + 1) (d - 1))
    else matchEndl r (n + 1) d

/-! ### Loading (R217 to R219) -/

/-- Whether a paragraph object gives a task-relative cluster a legal paragraph, and where it starts (R218). -/
def State.paragraphAt (s : State) (die slot : Nat) (ver : Bool) (rel : Nat) : Option (Nat × Nat) :=
  let size := s.imageSize die slot
  let ndir := s.imageNat die slot ver 4 4
  if size < 16 || s.imageNat die slot ver 0 4 ≠ 1 || ndir = 0 || 4096 < ndir || ndir ≤ rel || size < 20 + 4 * rel then none
  else
    let off := s.imageNat die slot ver (16 + 4 * rel) 4
    if off % 64 ≠ 0 || size < off + 4 then none
    else
      let n := s.imageNat die slot ver off 4
      if n = 0 || 1048576 < n || size < off + 1728 + 32 * n then none else some (off, n)

/-- Energy of reading n bytes of an object, in pJ (Table 17-4). -/
def State.readCost (s : State) (die slot n : Nat) : Nat :=
  if die ≠ s.die then (if die / 2 = s.die / 2 then 20 else 250) * ((n + 63) / 64)
  else
    match (s.obj slot).tier with
    | 0 => 10 * ((n + 127) / 128)
    | 1 => 20 * ((n + 127) / 128)
    | _ => 40 * ((n + 63) / 64)

/-- Each die reports once to the barrier master that its clusters have reached a stop epoch, or have all ended (R238). -/
def Cluster.stopReached (x : Cluster) : Nat := x.stopEpoch + b2n (x.step = .arrived && x.punct = 3)

/-- The bindings of a task that this die knows of, as it tells other dies (R258). -/
def State.bounds (s : State) (t : Task) : List Bound :=
  (t.named.filter (fun n => n.bound.isSome)).map (fun n =>
    let o := s.obj n.slot
    { idx := n.idx, die := n.die, slot := n.slot, ver := n.ver, size := if n.die = s.die then o.size else n.size,
      tier := if n.die = s.die then o.tier else n.tier })

/-- A task with the bindings that another die tells of, which hold in the given clusters. -/
def Task.learn (t : Task) (bs : List Bound) (cs : List Nat) : Task :=
  { t with named := t.named ++ (bs.filter (fun b => t.named.all (fun n => n.idx ≠ b.idx))).map (fun b =>
      { idx := b.idx, die := b.die, slot := b.slot, output := true, ver := b.ver, bound := some cs, size := b.size,
        tier := b.tier }) }

/-- The barrier master tells the other dies of a task, the dispatching one among them, that all its clusters have ended (R235;
log 37). -/
def State.tellEnded (s : State) (t : Task) : State :=
  if t.allReported then
    (((t.die :: t.layout.map Prod.fst).eraseDups).filter (fun d => d ≠ s.die)).foldl (fun s d =>
      s.send d (.arrive t.key t.stops true [])) s
  else s

/-- Report this die's arrivals of a task, where there is something new to report (R238); a cluster that has not started the run
has reached nothing. -/
def State.reportArrivals (s : State) (k : Nat) : State :=
  match s.task? k with
  | none => s
  | some t =>
    let live := t.clusters.filter (fun c => !s.endedFor k c)
    let ended := live = []
    let reached (c : Nat) : Nat := if t.started.contains c then (s.cluster c).stopReached else 0
    let epoch := (minOf (live.map reached)).getD (t.reported s.die).1
    if (t.reported s.die) = (epoch, decide ended) then s
    else
      let t := t.report s.die epoch ended
      let s := s.setTask k t
      if t.master = s.die then s.tellEnded t else s.send t.master (.arrive k epoch ended (s.bounds t))

/-- A cluster's run is over (R235): what its queues still hold is discarded and counted (R137); a release of its spare that
waits for the task boundary begins its copy (R426). -/
def State.clusterEnded (s : State) (c : Nat) : State :=
  let s := s.each s.tilesOf (fun s t => s.onTile c t (fun x =>
    { x with residue := satTo 65535 (x.residue + x.held), queues := [], vact := none, blocks := [], extOwed := [] }))
  let s := s.onCluster c (fun x =>
    { x with phase := if x.spare.release then .copying else .ended, paraEnded := true, loops := [] })
  match (s.cluster c).task with
  | none => s
  | some k =>
    let s := s.reportArrivals k
    s.tasks.foldl (fun s p => if p.2.after = some k then s.tryStaged p.1 else s) s

/-- The list of clauses of a paragraph. -/
def State.clausesAt (s : State) (die slot : Nat) (ver : Bool) (off : Nat) : Nat → List (BitVec 256)
  | 0 => []
  | n + 1 => BitVec.ofNat 256 (s.imageNat die slot ver off 32) :: State.clausesAt s die slot ver (off + 32) n

/-! ### Mailboxes, as messages enter them (R226, R228, R286) -/

/-- The cluster of this die that holds a task-relative number of a task, once it has started the task (R228, R286). -/
def State.clusterOf (s : State) (k rel : Nat) : Option Nat :=
  (List.range 32).find? (fun c =>
    let x := s.cluster c
    x.task = some k && x.rel = rel && ((s.task? k).map (fun t => t.started.contains c)).getD false)

/-- A message enters its mailbox, if its cluster has started the task and an entry is free (R226, R228). -/
def State.postMail (s : State) (k rel : Nat) (m : Msg) : Option State :=
  match s.clusterOf k rel with
  | none => none
  | some d =>
    if 16 ≤ (s.cluster d).mbox.length then none
    else some (s.onCluster d (fun y => { y with mbox := y.mbox ++ [m] }))

/-- A message of another die enters its mailbox, and its sender is told that its entry is reserved; else it waits (R228). -/
def State.takeLetter (s : State) (l : Letter) : State :=
  match s.postMail l.task l.rel l.m with
  | some s => s.send l.die (.mail l.task l.m.src { l.m with avail := false } true)
  | none => { s with mails := s.mails ++ [l] }

/-- The messages that wait for an entry try again, oldest first (R228, R230). -/
def State.tryMails (s : State) : State := s.mails.foldl State.takeLetter { s with mails := [] }

/-! ### The load (R217 to R219) -/

/-- Clauses that the paragraph store holds (R219). -/
def storeClauses : Nat := 8192

/-- Where a paragraph object of this die's cellar starts, as a cellar address (R219, R251). -/
def State.paraInCellar (s : State) (t : Task) : Option Nat :=
  let o := s.obj t.paraSlot
  if handleDie t.paragraph = s.die && o.tier = 2 then some (s.winAddr (o.baseOf t.paraVer * 65536)) else none

/-- The sequencer asks the cellar ports for a paragraph that lies there: its directory entry, its head, and the clauses that
its store takes at first. -/
def State.askPara (s : State) (c : Nat) (t : Task) (addr : Nat) : State :=
  let x := s.cluster c
  let s := s.onCluster c (fun x => { x with asked := true })
  let s := s.fetchPara c addr (20 + 4 * x.rel)
  match s.paragraphAt s.die t.paraSlot t.paraVer x.rel with
  | none => s
  | some (off, n) => s.fetchPara c (addr + off) (1728 + 32 * Nat.min n storeClauses)

/-- PARAGRAPH_LOAD: sequencer values, descriptors, mask and clauses come from the paragraph (R219); an illegal paragraph
ends the cluster at once (R218). A paragraph in the cellar is first asked of the ports, and loaded when its granules are there
(R251). Each command counts a cycle of loading (R280, log 13). -/
def execParagraphLoad (cl : Fin 32) (s : State) : Out :=
  let c := cl.val
  let x := s.cluster c
  match s.clusterTask c with
  | none => .next s
  | some t =>
    if x.phase ≠ .loading then .next s
    else if (s.paraInCellar t).isSome && !x.asked then
      .next ((s.stall c 27).askPara c t ((s.paraInCellar t).getD 0))
    else if s.onTheWay (fun g => g.paraOf c) then .next (s.stall c 27)
    else
      let s := s.stall c 27
      let die := handleDie t.paragraph
      match s.paragraphAt die t.paraSlot t.paraVer x.rel with
      | none =>
        let s := s.onCluster c (fun x => { x with next := 0, phase := .running, paraEnded := true })
        .next ((((s.seqError c 5).spend die).clusterEnded c).tryMails)
      | some (off, n) =>
        let num (b k : Nat) : Nat := s.imageNat die t.paraSlot t.paraVer (off + b) k
        let sv := (List.range 32).map (fun i => (i, BitVec.ofNat 32 (num (64 + 4 * i) 4)))
        let agd := (List.range 32).map (fun i => (i, BitVec.ofNat 384 (num (192 + 48 * i) 48)))
        let mask := BitVec.ofNat 16 (num 4 2)
        let clauses := s.clausesAt die t.paraSlot t.paraVer (off + 1728) n
        let s := s.chargeCl c (s.readCost die t.paraSlot (1728 + 32 * n))
        .next (((s.onCluster c (fun x =>
          { x with sv := sv, agd := agd, mask := mask, para := clauses, phase := .running,
                   fetched := Nat.min n storeClauses }.goto 0)).spend die).tryMails)

/-! ### The paragraph store of a long paragraph (R219) -/

/-- Whether a granule of the clause that a sequencer stands at is still on its way. -/
def State.clauseDue (s : State) (c : Nat) : Bool :=
  match s.clusterTask c with
  | none => false
  | some t =>
    match s.paraInCellar t, s.paragraphAt s.die t.paraSlot t.paraVer (s.cluster c).rel with
    | some addr, some (off, _) =>
      let a := (addr + off + 1728 + 32 * (s.cluster c).next) / 64 * 64
      s.onTheWay (fun g => g.paraOf c && g.addr = a)
    | _, _ => false

/-- Whether the clause that a sequencer stands at has been fetched into its store and is still kept there. -/
def State.clauseThere (s : State) (c : Nat) : Bool :=
  let x := s.cluster c
  decide (x.next < x.fetched) && decide (x.fetched ≤ x.next + storeClauses) && !s.clauseDue c

/-- The sequencer fetches ahead of broadcast through its store, for n clauses more; where it has jumped back past what the store
keeps, it begins anew there (R219). -/
def State.fetchAhead (s : State) (c n : Nat) : State :=
  let x := s.cluster c
  if x.phase ≠ .running || x.paraEnded then s
  else
    let lo := if x.next < x.fetched && x.fetched ≤ x.next + storeClauses then x.fetched else x.next
    let hi := Nat.min (lo + n) (Nat.min x.para.length (x.next + storeClauses))
    if hi ≤ lo then s
    else
      let s := s.onCluster c (fun x => { x with fetched := hi })
      match s.clusterTask c with
      | none => s
      | some t =>
        match s.paraInCellar t, s.paragraphAt s.die t.paraSlot t.paraVer x.rel with
        | some addr, some (off, _) => s.fetchPara c (addr + off + 1728 + 32 * lo) (32 * (hi - lo))
        | _, _ => s

/-! ### Broadcast and control (R220 to R225) -/

/-- CLAUSE_BROADCAST: one clause enters the clause queue of every tile that holds a logical number, if all have room
(R220, R221); one not yet fetched waits under cause 31 (R219). Operation 7 acts as NONE and is recorded (R225). -/
def execClauseBroadcast (cl : Fin 32) (s : State) : Out :=
  let c := cl.val
  let x := s.cluster c
  if x.phase ≠ .running || x.paraEnded || x.step ≠ .body then .next s
  else if s.tilesOf.any (fun t => 256 ≤ (s.tile c t).clauseQ.length) then .next s
  else if !s.clauseThere c then .next (s.stall c 31)
  else
    let clause : Clause := { seq := x.bcount, addr := x.next, word := x.word, mask := x.mask }
    let s := s.each s.tilesOf (fun s t => s.onTile c t (fun y => { y with clauseQ := y.clauseQ ++ [clause] }))
    let op := clauseOp x.word
    let s := if op = 7 then s.seqError c 1 else s
    .next (s.onCluster c (fun x =>
      let x := { x with bcount := x.bcount + 1 }
      if op = 1 ∨ op = 2 ∨ op = 4 ∨ op = 6 then { x with step := .post } else x.after (x.next + 1)))

/-- What LOOP does to its sequencer: a loop is opened; a count of 0 skips its body, one on the last clause has none, and a ninth is
not opened (R222 to R225). -/
def Cluster.loopStep (x : Cluster) : Cluster :=
  if 8 ≤ x.loops.length then x.after (x.next + 1)
  else
    let count := (x.value (clauseArg x.word)).toNat
    let endl := matchEndl (x.para.drop (x.next + 1)) (x.next + 1) 0
    if count = 0 ∨ x.next + 1 = x.para.length then
      x.after (match endl with
        | some e => e + 1
        | none => x.para.length)
    else
      let l : Loop := { body := x.next + 1, left := count,
                        last := match endl with
                          | some _ => x.para.length
                          | none => x.para.length - 1 }
      { x with loops := l :: x.loops }.goto (x.next + 1)

/-- LOOP (R222 to R225). -/
def execLoop (cl : Fin 32) (s : State) : Out :=
  let c := cl.val
  let x := s.cluster c
  if !x.at_ .post 1 then .next s
  else .next ((if 8 ≤ x.loops.length then s.seqError c 2 else s).onCluster c Cluster.loopStep)

/-- What ENDL does to its sequencer: the innermost loop repeats its body or closes (R223, R225). -/
def Cluster.endlStep (x : Cluster) : Cluster :=
  match x.loops with
  | [] => x.after (x.next + 1)
  | l :: r =>
    if l.left ≤ 1 then { x with loops := r }.after (x.next + 1)
    else { x with loops := { l with left := l.left - 1 } :: r }.goto l.body

/-- ENDL (R223, R225). -/
def execEndl (cl : Fin 32) (s : State) : Out :=
  let c := cl.val
  let x := s.cluster c
  if !x.at_ .post 2 then .next s
  else .next ((if x.loops = [] then s.seqError c 3 else s).onCluster c Cluster.endlStep)

/-- Address of the next clause that a sequencer broadcasts: past its broadcast a clause is not that one (Table 08-7). -/
def Cluster.nextBroadcast (x : Cluster) : Nat :=
  if x.step = .post && !x.paraEnded then
    (match clauseOp x.word with
     | 1 => x.loopStep
     | 2 => x.endlStep
     | 4 => x.after (x.next + 1)
     | _ => x.goto x.para.length).next
  else x.next

/-- MASK: the tile mask, for this clause on (R222, R223). -/
def execMask (cl : Fin 32) (s : State) : Out :=
  let c := cl.val
  let x := s.cluster c
  if !x.at_ .pre 3 then .next s
  else .next (s.onCluster c (fun x => { x with mask := (x.value (clauseArg x.word)).truncate 16, step := .body }))

/-- END: the paragraph ends after this clause (R222, R223). -/
def execEndPara (cl : Fin 32) (s : State) : Out :=
  let c := cl.val
  if !(s.cluster c).at_ .post 6 then .next s
  else .next (s.onCluster c (fun x => x.goto x.para.length))

/-! ### Mailboxes (R226 to R230) -/

/-- SEND: one message, once an entry of the destination mailbox is reserved (R228). One to another die travels at once, and the
sequencer waits until that die answers that it has reserved an entry. -/
def execSend (cl : Fin 32) (s : State) : Out :=
  let c := cl.val
  let x := s.cluster c
  match x.task, s.clusterTask c with
  | some k, some t =>
    if !x.at_ .post 4 then .next s
    else
      let arg := clauseArg x.word
      let dest := bitsN (x.value arg).toNat 0 12
      let m : Msg := { src := x.rel, w1 := x.value (arg + 1), w2 := x.value (arg + 2), w3 := x.value (arg + 3), avail := false }
      let done (s : State) : State :=
        s.onCluster c (fun x => { x with sent := satTo 255 (x.sent + 1), posted := 0 }.after (x.next + 1))
      if t.total ≤ dest then .next ((s.seqError c 4).onCluster c (fun x => x.after (x.next + 1)))
      else if dieOf dest t.layout ≠ some s.die then
        (match dieOf dest t.layout with
         | some d =>
           if x.posted = 2 then .next (done s)
           else if x.posted = 1 then .next (s.stall c 30)
           else .next (((s.onCluster c (fun x => { x with posted := 1 })).send d (.mail k dest m false)).stall c 30)
         | none => .next s)
      else
        match s.postMail k dest m with
        | none => .next (s.stall c 30)
        | some s => .next (done s)
  | _, _ => .next s

/-- The oldest available message from a sender, with its place; 0xFFF is any sender (R229). -/
def Cluster.mailFrom (x : Cluster) (src : Nat) : Option (Nat × Msg) :=
  findPos (fun m => m.avail && (src = 0xFFF || m.src = src)) x.mbox 0

/-- RECV: a message's four words reach four sequencer values (R229). -/
def execRecv (cl : Fin 32) (s : State) : Out :=
  let c := cl.val
  let x := s.cluster c
  match s.clusterTask c with
  | none => .next s
  | some t =>
    if !x.at_ .pre 5 then .next s
    else
      let arg := clauseArg x.word
      let src := bitsN (x.value arg).toNat 0 12
      let put (x : Cluster) (ws : List Word) : Cluster :=
        { x with sv := (ws.zip (List.range 4)).foldl (fun m p => Tbl.set ((arg + p.2) % 32) p.1 m) x.sv, step := .body }
      if src ≠ 0xFFF ∧ t.total ≤ src then .next ((s.seqError c 4).onCluster c (fun x => put x [0, 0, 0, 0]))
      else
        match x.mailFrom src with
        | none => .next (s.stall c 29)
        | some (n, m) =>
          .next (s.onCluster c (fun x =>
            { put x [BitVec.ofNat 32 m.src, m.w1, m.w2, m.w3] with
              mbox := x.mbox.eraseIdx n, received := satTo 255 (x.received + 1) })).tryMails

/-- MAIL_AVAILABLE: a message that has travelled may be received; messages of one sender in order (R228, R230). -/
def execMailAvailable (cl : Fin 32) (idx : Nat) (s : State) : Out :=
  let x := s.cluster cl.val
  match x.mbox[idx]? with
  | none => .next s
  | some m =>
    if (x.mbox.take idx).any (fun o => o.src = m.src && !o.avail) then .next s
    else .next (s.onCluster cl.val (fun x => { x with mbox := x.mbox.set idx { m with avail := true } }))

/-! ### Punctuation (R231 to R240) -/

/-- Whether every tile of a cluster has issued every field broadcast, and completed their accesses (R232). -/
def State.allDrained (s : State) (c : Nat) : Bool :=
  let n := (s.cluster c).bcount
  s.tilesOf.all (fun t =>
    let x := s.tile c t
    decide (n ≤ x.issuedBy 5) && (List.range 5).all (fun slot => x.drainedSlot n slot))

/-- BARRIER_ARRIVE: a cluster whose tiles have all drained arrives at its punctuation (R232). -/
def execBarrierArrive (cl : Fin 32) (s : State) : Out :=
  let c := cl.val
  let x := s.cluster c
  if x.phase ≠ .running || x.paraEnded || x.step ≠ .barrier then .next s
  else if !s.allDrained c then .next (s.stall c 28)
  else
    let s := s.onCluster c (fun x => { x with step := .arrived, punct := clausePunct x.word })
    match x.task with
    | none => .next s
    | some k => .next (s.reportArrivals k)

/-- Whether a cluster waits at a barrier of a kind. -/
def Cluster.waitsAt (x : Cluster) (punct : Nat) : Bool := x.phase = .running && x.step = .arrived && x.punct = punct

/-- A barrier releases a cluster: what it counts goes on, and clause order with it (R233, R234); a soft start begins (R242). -/
def Cluster.pass (now : Nat) (x : Cluster) : Cluster :=
  { x with
    softAt := now
    commas := x.commas + 1
    regEpoch := x.regEpoch + b2n (2 ≤ x.punct)
    stopEpoch := x.stopEpoch + b2n (x.punct = 3)
    punct := 0
    step := afterBarrier x.word }

/-- COMMA_RELEASE (R233, R236). -/
def execCommaRelease (cl : Fin 32) (s : State) : Out :=
  if (s.cluster cl.val).waitsAt 1 then .next (s.onCluster cl.val (Cluster.pass s.now)) else .next s

/-- Region epoch that a cluster has reached (R233). -/
def Cluster.regionReached (x : Cluster) : Nat := x.regEpoch + b2n (x.step = .arrived && 2 ≤ x.punct)

/-- Whether a semicolon of a cluster may release: every participant in its region has reached the epoch or ended (R233). -/
def State.semicolonDone (s : State) (c : Nat) : Bool :=
  let x := s.cluster c
  x.waitsAt 2 &&
    (match x.task, s.clusterTask c with
     | some k, some t => t.clusters.all (fun d =>
        d / 4 ≠ c / 4 || s.endedFor k d ||
          (t.started.contains d && decide (x.regEpoch + 1 ≤ (s.cluster d).regionReached)))
     | _, _ => false)

/-- SEMICOLON_RELEASE: each waiting cluster of the region whose participants have all arrived goes on (R233, R237). -/
def execSemicolonRelease (region : Fin 8) (s : State) : Out :=
  let cs := (List.range 4).map (fun i => 4 * region.val + i)
  let go := cs.filter s.semicolonDone
  let wait := cs.filter (fun c => (s.cluster c).waitsAt 2 && !s.semicolonDone c)
  .next ((s.each wait (fun s c => s.stall c 28)).each go (fun s c => s.onCluster c (Cluster.pass s.now)))

/-- The release of a full stop reaches this die: its clusters that wait at that stop epoch go on, and bindings made before
it hold in every cluster (R233, R237, R258). -/
def State.passStop (s : State) (k epoch : Nat) : State :=
  let go := (s.holding k).filter (fun c => (s.cluster c).waitsAt 3 && (s.cluster c).stopEpoch + 1 = epoch)
  let s := s.each go (fun s c => s.onCluster c (Cluster.pass s.now))
  s.onTask k (fun t =>
    { t with stops := epoch, named := t.named.map (fun n =>
        match n.bound with
        | none => n
        | some _ => { n with bound := some (List.range 32) }) })

/-- Packages that hold clusters of a task, in the order in which the release reaches them: ascending from the master's,
wrapping past 7 (R239). -/
def Task.packages (t : Task) : List Nat :=
  (List.range 8).filterMap (fun i =>
    let p := (t.master / 2 + i) % 8
    if t.layout.any (fun d => d.1 / 2 = p) then some p else none)

/-- First die of a package to receive the release: its lowest die that holds clusters of the task (R239). -/
def Task.firstOf (t : Task) (pkg : Nat) : Option Nat := minOf ((t.layout.map Prod.fst).filter (fun d => d / 2 = pkg))

/-- Where a die forwards a full stop's release: to the other die of its package and to the next package (R239). -/
def Task.forwards (t : Task) (die : Nat) : List Nat :=
  let mine := die / 2
  if t.firstOf mine ≠ some die then []
  else
    (t.layout.map Prod.fst).filter (fun d => d / 2 = mine && d ≠ die) ++
      (match (t.packages.dropWhile (fun p => p ≠ mine)).drop 1 with
       | [] => []
       | p :: _ => (t.firstOf p).toList)

/-- Forward a release, with the bindings that hold from now on (R239, R258; log 37). -/
def State.forward (s : State) (t : Task) (epoch : Nat) : State :=
  (t.forwards s.die).foldl (fun s d => s.send d (.release t.key epoch (s.bounds t))) s

/-- FULL_STOP_RELEASE: the barrier master releases the next full stop once every die has reported it or ended (R238). -/
def execFullStopRelease (task : Nat) (s : State) : Out :=
  match s.task? task with
  | none => .next s
  | some t =>
    let epoch := t.stops + 1
    if t.life ≠ .running || t.master ≠ s.die then .next s
    else if (t.layout.map Prod.fst).any (fun d => (t.reported d).1 < epoch && !(t.reported d).2) ||
        t.allReported then
      .next (s.each ((s.holding task).filter (fun c => (s.cluster c).waitsAt 3)) (fun s c => s.stall c 28))
    else .next (((s.passStop task epoch).forward t epoch).reportArrivals task)

/-! ### The end of a cluster (R235, R293) -/

/-- Whether an extension-field frame of a cluster has an essential word (R378, R412). -/
def State.extEssential (s : State) (c i : Nat) : Bool :=
  s.mapOf (896 * (c / 4) + 256 + 128 * (c % 4) + i) != 0

/-- Whether a cluster's extension field has been read back where a run used it (R412). -/
def State.extReadBack (s : State) (c : Nat) : Bool :=
  !(s.cluster c).extUsed || (List.range s.extFrames).all (fun i => !s.extEssential c i || (s.cluster c).extRead.contains i)

/-- CLUSTER_END: paragraph ended, every verb and block done, every access complete, every verdict in, the extension field read
back (R137, R293, R412). -/
def execClusterEnd (cl : Fin 32) (s : State) : Out :=
  let c := cl.val
  let x := s.cluster c
  let quiet := s.tilesOf.all (fun t =>
    let y := s.tile c t
    y.accs.isEmpty && y.verdicts.isEmpty && y.ctWait.isEmpty && y.blocks.isEmpty && y.shared.isEmpty)
  if x.phase ≠ .running || !x.paraEnded || !s.allDrained c || !quiet || !x.areq.isEmpty || !x.ares.isEmpty || !s.extReadBack c then .next s
  else .next (s.clusterEnded c)

/-- BUDGET_EXPIRE: a cluster of a run has reached the task's budget; the run is aborted and its end is TIMEOUT (R320), also where
an abort of it still drains (R297). -/
def execBudgetExpire (cl : Fin 32) (s : State) : Out :=
  let x := s.cluster cl.val
  match x.task, s.clusterTask cl.val with
  | some k, some t =>
    if (x.phase.spends || (x.phase = .stopped && t.life = .aborting)) && !s.faults.stopped && !s.faults.thermal &&
        decide (x.startAt + t.budget * 125 ≤ s.now) then .next (s.abortRun k .budget)
    else .next s
  | _, _ => .next s

end Sys2Proof.Machine
end

