-- ==== Sys2Proof/Machine/Submit.lean ====
section
/-! DEFINITION. SUBMIT's checks and what acceptance does (R312 to R315, R457, R458). -/
namespace Sys2Proof.Machine

/-! ### Host queues of the shape (R28, R316) -/

/-- Queues granted to the partitions below p. -/
def State.queuesBelow (s : State) (p : Nat) : Nat :=
  (List.range p).foldl (fun n i => n + (if s.partPresent i then Tbl.get 0 s.shape.hostQueues i else 0)) 0

/-- The die's total of host queues (R28). -/
def State.queueTotal (s : State) : Nat := s.queuesBelow 8

/-- Partition of a queue: the last whose first queue is not above it (R28). -/
def State.queuePart (s : State) (q : Nat) : Nat :=
  ((List.range 8).filter (fun p => s.partPresent p && s.queuesBelow p ≤ q)).foldl max 0

/-- State of a queue; one at or above the total is ABSENT once it is IDLE (R316). -/
def State.queueState (s : State) (q : Nat) : QSt :=
  let st := (s.queue q).st
  if st = .idle && s.queueTotal ≤ q then .absent else st

/-- The master that owns a queue: its context's. -/
def State.queueMaster (s : State) (q : Nat) : Option Nat :=
  let y := s.queue q
  match y.st with
  | .open_ => some (s.ctx y.ctx.toNat).master.toNat
  | .blocked => some (s.ctx y.ctx.toNat).master.toNat
  | .draining => some (s.ctx y.ctx.toNat).master.toNat
  | _ => none

/-! ### Handles of a descriptor -/

/-- Whether a handle may be named in a descriptor: live, in the context's partition, of the right kind, the context's own
or shared and named as an input (Table 11-7 step 4, R308). Of another die's object this die knows nothing: a free value
decides (log 17). -/
def State.mayName (s : State) (id : BitVec 12) (part : Nat) (h : Word) (role : Nat) (fence own : Bool) (n : Nat) : Bool :=
  if handleDie h ≠ s.die then
    s.maybeThere h && handlePart h = part && (Config.freeWord (s.free + n)).getLsbD 0
  else
    match s.live h none with
    | none => false
    | some i =>
      let o := s.obj i
      let mine := o.owner = id && o.ownerDie = s.die
      o.part = part && o.fence == fence && (mine || (!own && role = 0 && o.shared))

/-- What a descriptor asks for, by Table 11-6. -/
structure Ask where
  desc : BitVec 512
  objs : List (Word × Nat)
deriving DecidableEq, Repr

/-- A field of a descriptor. -/
def Ask.fld (a : Ask) (lo w : Nat) : Nat := bitsN a.desc.toNat lo w

/-- A handle field of a descriptor. -/
def Ask.handle (a : Ask) (lo : Nat) : Word := BitVec.ofNat 32 (a.fld lo 32)

/-- NOBJ. -/
def Ask.nobj (a : Ask) : Nat := a.fld 144 7
/-- NCLUSTER. -/
def Ask.ncluster (a : Ask) : Nat := a.fld 16 12

/-- Active clusters of a partition that a submission is checked against: in service, no more than a pending shape or a
withdrawal leaves (Table 11-6, R40, R436, R437). -/
def State.clusterLimit (s : State) (part : Nat) : Nat :=
  let others := ((List.range 16).filter (fun d => d ≠ s.die && !s.lostDies.contains d)).foldl
    (fun n d => n + Tbl.get 0 s.peers (8 * d + part)) 0
  let count (sh : Shape) : Nat :=
    ((List.range 32).filter (fun c => s.activeIn sh c && !bitN s.faults.out.toNat (c / 4) && !s.leaving c && sh.part c = part)).length
  others + (match s.pendShape with
    | none => count s.shape
    | some sh => min (count s.shape) (count sh))

/-- Step 3: the fields in range, the object list long enough, no handle in two output entries (Table 11-7). -/
def State.askOk (s : State) (part : Nat) (a : Ask) : Bool :=
  let n := a.ncluster
  let listOk := a.nobj = 0 ||
    (match s.live (a.handle 160) none with
     | none => true
     | some i => decide (8 * a.nobj ≤ (s.obj i).size))
  let outs := (a.objs.filter (fun e => e.2 = 1)).map Prod.fst
  a.fld 0 4 = 1 && 1 ≤ n && n ≤ s.clusterLimit part && 1 ≤ a.fld 128 16 && a.fld 128 16 ≤ 50000 && a.nobj ≤ 64 &&
    a.fld 319 1 = 0 && a.fld 415 1 = 0 && a.fld 511 1 = 0 && listOk && outs.length = outs.eraseDups.length

/-- The handles that a descriptor names besides its object list: handle, fence wanted, own wanted. -/
def Ask.fixed (a : Ask) : List (Word × Bool × Bool) :=
  ((a.handle 32, false, false) ::
    (if a.nobj = 0 then [] else [(a.handle 160, false, false)]) ++
    [(a.handle 192, false, false), (a.handle 224, true, true), (a.handle 320, true, false), (a.handle 416, true, false)].filter
      (fun p => p.1 ≠ 0))

/-- Step 4: every handle named may be named (Table 11-7). -/
def State.handlesOk (s : State) (id : BitVec 12) (part : Nat) (a : Ask) : Bool :=
  (a.fixed.zip (List.range 8)).all (fun p => s.mayName id part p.1.1 0 p.1.2.1 p.1.2.2 p.2) &&
    (a.objs.zip (List.range 64)).all (fun p => s.mayName id part p.1.1 p.1.2 false false (8 + p.2))

/-- Slots of this die that a descriptor names, each once (R306). -/
def State.slotsOf (s : State) (a : Ask) : List Nat :=
  ((((a.fixed.map (fun p => p.1)) ++ a.objs.map Prod.fst).filter (fun h => handleDie h = s.die)).map handleSlot).eraseDups

/-- Bytes of the current version of an object. -/
def State.objBytes (s : State) (o : Obj) (ver : Bool) : List Byte :=
  (List.range o.size).map (fun b =>
    match (s.objByte o ver b).flat with
    | some x => memGet s.mem x
    | none => 0)

/-- Whether the sealed objects that a descriptor names let this paragraph read them (R457). -/
def State.sealsOk (s : State) (part : Nat) (a : Ask) : Bool :=
  let para := s.obj (handleSlot (a.handle 32))
  let sealedIn (h : Word) : Option Seal := if handleDie h = s.die then (s.obj (handleSlot h)).policy else none
  let digest := sha384 (s.objBytes para (s.current para))
  let local_ := ((List.range 32).filter (fun c => s.usable c && s.shape.part c = part)).length +
    Tbl.get 0 s.peers (8 * (s.die / 2 * 2 + 1 - s.die % 2) + part)
  let ok (p : Seal) : Bool :=
    handleDie (a.handle 32) = s.die && para.committed && p.digests.contains digest && (p.spanOk || decide (a.ncluster ≤ local_))
  (sealedIn (a.handle 32)).isNone && (a.nobj = 0 || (sealedIn (a.handle 160)).isNone) &&
    a.objs.all (fun e => match sealedIn e.1 with
      | none => true
      | some p => e.2 = 0 && ok p) &&
    (a.handle 192 = 0 || (match sealedIn (a.handle 192) with
      | none => true
      | some p => ok p))

/-- Whether a descriptor names a sealed object. -/
def State.namesSealed (s : State) (a : Ask) : Bool := (s.slotsOf a).any (fun i => (s.obj i).policy.isSome)

/-- Whether a clause uses an extension verb that the build lacks, or three-pass mode that is fused off (R23, R86). -/
def State.clauseAbsent (s : State) (w : BitVec 256) : Bool :=
  let v := slotField 1 w
  let m := slotField 2 w
  (!s.hasExt && verbOf 1 v = 0x40) || (bitN s.grade.toNat 3 && verbOf 2 m = 1 && bitsN m 5 3 = 5 && bitsN m 8 3 = 5)

/-- Whether the paragraph object uses an absent feature (Table 11-7 step 6). -/
def State.paragraphAbsent (s : State) (die slot : Nat) (ver : Bool) : Bool :=
  (List.range (s.imageNat die slot ver 4 4)).any (fun rel =>
    match s.paragraphAt die slot ver rel with
    | none => false
    | some (off, n) => (s.clausesAt die slot ver (off + 1728) n).any s.clauseAbsent)

/-- Step 6, with the verdict held for the paragraph's generation and version (Table 11-7). -/
def State.unitCheck (s : State) (part : Nat) (a : Ask) : Bool × State :=
  let h := a.handle 32
  let i := handleSlot h
  let o := s.obj i
  let ver := handleDie h = s.die && o.committed && s.current o
  let here := ((List.range 32).filter (fun c => s.active c && s.shape.part c = part)).length
  let links := decide (a.ncluster ≤ here) || s.hasSeam || s.spans ≠ 0
  match (if handleDie h = s.die then Tbl.find (b2n ver) o.checked else none) with
  | some bad => (!bad && links, s)
  | none =>
    let bad := s.paragraphAbsent (handleDie h) i ver
    let s := if handleDie h = s.die then s.setObj i { o with checked := Tbl.set (b2n ver) bad o.checked } else s.spend (handleDie h)
    (!bad && links, s)

/-- Acceptance: the next sequence, the references, the place in the queue (R306, R315); a task that names a sealed object
has its paragraph resolved now (R458). -/
def State.accept (s : State) (port : Nat) (c : PCmd) (q : Nat) (a : Ask) : Word × State :=
  let y := s.queue q
  let seq := s.taskSeq + 1
  let k := taskKey s.die seq
  let slots := s.slotsOf a
  let h := a.handle 32
  let early := s.namesSealed a && handleDie h = s.die
  let o := s.obj (handleSlot h)
  let ver := early && o.committed && s.current o
  let named : List Named :=
    if early then [{ idx := 64, die := s.die, slot := handleSlot h, output := false, ver := ver, bound := none }] else []
  let t : Task :=
    { seq := seq, die := s.die, port := port, tag := c.tag, mid := c.mid, queue := q, ctx := y.ctx,
      part := (s.ctx y.ctx.toNat).part, desc := a.desc, objs := a.objs.map (fun e => (e.1, e.2 = 1)), refs := slots,
      named := named, paraSlot := handleSlot h, paraVer := ver, life := .pending, clusters := [], started := [], total := a.ncluster,
      layout := [], stops := 0, outst := 0, used := false, rerun := false, firstAddr := 0, cause := none, nans := [],
      illegal := 0, seqErr := 0, warn := false, allocs := [], frees := [], reports := [], after := none, resolved := false,
      log := [], accepted := s.now }
  let s := { s with taskSeq := seq }
  let s := (s.setTask k t).addRefs slots
  let s := if early && o.committed then s.onObj (handleSlot h) (fun o => o.addReader ver) else s
  (seq, s.onQueue q (fun y => { y with waiting := y.waiting ++ [k] }))

/-- SUBMIT's checks in the order of Table 11-7, and its answer: a status and the result word (R314). Whether an output on
another die is committed is a free value (log 17). -/
def State.submitChecks (s : State) (port : Nat) (c : PCmd) : Nat × BitVec 64 × State :=
  let q := bitsN c.arg0.toNat 0 10
  let y := s.queue q
  let st := s.queueState q
  let desc : BitVec 512 := BitVec.ofNat 512 ((c.wd.getD 0 0).toNat + (c.wd.getD 1 0).toNat * 2 ^ 256)
  let x := s.ctx y.ctx.toNat
  if s.queueTotal ≤ q || !(st = .open_ || st = .blocked || st = .draining) || s.queueMaster q ≠ some c.mid.toNat then
    (stRange, 0, s)
  else if x.st ≠ .live then (stLost, 0, s)
  else
    let bare : Ask := { desc := desc, objs := [] }
    let h := bare.handle 160
    let objs : List (Word × Nat) :=
      if bare.nobj = 0 || 64 < bare.nobj then []
      else
        match (if handleDie h = s.die then s.live h none else some (handleSlot h)) with
        | none => []
        | some i =>
          let o := s.obj i
          let ver := handleDie h = s.die && o.committed && s.current o
          (List.range bare.nobj).map (fun n =>
            (BitVec.ofNat 32 (s.imageNat (handleDie h) i ver (8 * n) 4), s.imageNat (handleDie h) i ver (8 * n + 4) 1))
    let a : Ask := { bare with objs := objs }
    let outDies := (((objs.zip (List.range 64)).filter (fun e => e.1.2 = 1 &&
      (if handleDie e.1.1 = s.die then (s.obj (handleSlot e.1.1)).committed else (Config.freeWord (s.free + 72 + e.2)).getLsbD 0))).map
      (fun e => handleDie e.1.1)).eraseDups
    if !s.askOk x.part a then (stRange, 0, s)
    else if !s.handlesOk y.ctx x.part a || !s.sealsOk x.part a then (stHandle, 0, s)
    else if 1 < outDies.length || objs.any (fun e => 1 < e.2) then (stRange, 0, s)
    else
      let (ok, s) := s.unitCheck x.part a
      if !ok then (stAbsent, 0, s)
      else if 16384 ≤ (s.tasks.filter (fun p => p.2.die = s.die)).length || y.qdepth ≤ (s.pendingOf q).length then (stFull, 0, s)
      else
        let (seq, s) := s.accept port c q a
        (0, seq.zeroExtend 64, s)

/-- SUBMIT's checks, the free values that it drew being spent. -/
def State.submitNow (s : State) (port : Nat) (c : PCmd) : Nat × BitVec 64 × State :=
  let (st, r, s) := s.submitChecks port c
  (st, r, { s with free := s.free + 136 })

end Sys2Proof.Machine
end

