-- ==== Sys2Proof/Machine/Front.lean ====
section
/-! DEFINITION. Front ports: how a command beat is taken, answered and timed out (12). -/
namespace Sys2Proof.Machine

/-- Whether the die serves commands: SERVING (R393), its privileged shells not being reloaded (R417). -/
def State.serving (s : State) : Bool := s.start.st = 7 && s.scrub.running

/-- Count a command rejected for a field (R344). -/
def Front.bad (p : Front) : Front := { p with badField := satTo 65535 (p.badField + 1) }

/-- Commands of a port that await their answers: queued ones, and one whose answer is on offer and has not transferred (R340). -/
def Front.awaiting (p : Front) : Nat := p.cmds.length + b2n (p.offered.any (fun b => b.kind ≠ 1))

/-- Whether a port can take a command beat (R340, R345). -/
def State.takes (s : State) (f : Nat) : Bool := s.serving && !(s.port f).hung && decide ((s.port f).awaiting < 1024)

/-- Refresh a master's heartbeat (R324). -/
def State.beat (s : State) (m : Nat) : State := { s with hbAt := Tbl.set m s.now s.hbAt }

/-- Queue a command of a port, with its answer if it has one already (R338). -/
def State.queueCmd (s : State) (f op : Nat) (b : CmdBeat) (ans : Option Ans) (task : Option Nat) : State :=
  let c : PCmd := { op := op, tag := b.tag, mid := b.mid, arg0 := b.arg0, owed := b.nwd.toNat, wd := [], at_ := s.now, ans := ans,
                    task := task }
  s.onPort f (fun p => { p with cmds := p.cmds ++ [c] })

/-- An answer with no continuation. -/
def ansOf (status : Nat) (result : BitVec 64) : Ans := { status := status, result := result, cont := none }

/-- Take a command beat (R334 to R336, R344): MID and fields are checked, the master's heartbeat refreshed, then the
command runs and its answer is queued behind the earlier ones. -/
def State.command (s : State) (f op nwd : Nat) (b : CmdBeat) (fieldsOk : Bool) (run : State → Ans × State) : State :=
  if !s.takes f then s
  else if s.portOf b.mid.toNat ≠ some f then
    (s.onPort f (fun p => { p with midRej := satTo 65535 (p.midRej + 1) })).queueCmd f op b (some (ansOf stRange 0)) none
  else
    let s := s.beat b.mid.toNat
    if b.nwd.toNat ≠ nwd || !fieldsOk then (s.onPort f Front.bad).queueCmd f op b (some (ansOf stRange 0)) none
    else
      let (a, s) := run s
      s.queueCmd f op b (some a) none

/-- Give a waiting command its answer, and its task if it was accepted. -/
def PCmd.answer (c : PCmd) (a : Ans) (task : Option Nat) : PCmd := { c with ans := some a, task := task }

/-- Change the first command of a port that awaits write data. -/
def onOwed (g : PCmd → PCmd) : List PCmd → List PCmd
  | [] => []
  | c :: r => if c.owed ≠ 0 then g c :: r else c :: onOwed g r

/-- A write-data beat reaches the oldest command that awaits one (R337, R344). The last beat of a SUBMIT runs its checks. -/
def State.dataBeat (s : State) (f : Nat) (w : WdBeat) : State :=
  if !s.serving || (s.port f).hung then s
  else
    let wdErr (p : Front) : Front := { p with wdErr := satTo 65535 (p.wdErr + 1) }
    match (s.port f).cmds.find? (fun c => c.owed ≠ 0) with
    | none => s.onPort f wdErr
    | some c =>
      if w.tag ≠ c.tag then
        s.onPort f (fun p => wdErr { p with cmds := onOwed (fun c =>
          { c with owed := 0, wd := [], ans := some (c.ans.getD (ansOf stRange 0)) }) p.cmds })
      else
        let c' := { c with owed := c.owed - 1, wd := if c.ans.isNone then c.wd ++ [w.data] else [] }
        if c'.owed = 0 ∧ c'.ans.isNone then
          let (st, r, s) := s.submitNow f c'
          s.onPort f (fun p => { p with cmds := onOwed (fun _ =>
            c'.answer (ansOf st r) (if st = 0 then some (taskKey s.die (r.truncate 32)) else none)) p.cmds })
        else s.onPort f (fun p => { p with cmds := onOwed (fun _ => c') p.cmds })

/-- SUBMIT: the command beat, and the write-data beats that come with it (R314, R336, R341). -/
def execSubmit (port : Fin 4) (b : CmdBeat) (wd : List WdBeat) (s : State) : Out :=
  let f := port.val
  let s :=
    if !s.takes f then s
    else if s.portOf b.mid.toNat ≠ some f then
      (s.onPort f (fun p => { p with midRej := satTo 65535 (p.midRej + 1) })).queueCmd f 0x10 b (some (ansOf stRange 0)) none
    else if b.nwd ≠ 2 then ((s.beat b.mid.toNat).onPort f Front.bad).queueCmd f 0x10 b (some (ansOf stRange 0)) none
    else (s.beat b.mid.toNat).queueCmd f 0x10 b none none
  .next (wd.foldl (fun s w => s.dataBeat f w) s)

/-- WRITE_DATA_BEAT (R337, R344). -/
def execWriteDataBeat (port : Fin 4) (w : WdBeat) (s : State) : Out := .next (s.dataBeat port.val w)

/-- WD_TIMEOUT: the oldest command whose data are late is rejected, its beats discarded (R344). -/
def execWdTimeout (port : Fin 4) (s : State) : Out :=
  let f := port.val
  match (s.port f).cmds.find? (fun c => c.owed ≠ 0) with
  | none => .next s
  | some c =>
    if s.now < c.at_ + s.wdLimit * 125 then .next s
    else .next (s.onPort f (fun p =>
      { p with wdErr := satTo 65535 (p.wdErr + 1)
               cmds := onOwed (fun c => { c with owed := 0, wd := [], ans := some (c.ans.getD (ansOf stRange 0)) }) p.cmds }))

/-- The answer beat of a command (Table 12-4). -/
def PCmd.beat (c : PCmd) (a : Ans) : RespBeat :=
  { op := c.op, tag := c.tag, mid := c.mid, kind := 0, status := a.status, result := a.result, record := 0 }

/-- The continuation beat of a DESC_READ (R338). -/
def PCmd.continuation (c : PCmd) (x : BitVec 192) : RespBeat :=
  { op := c.op, tag := c.tag, mid := c.mid, kind := 2, status := 0, result := x.truncate 64, record := (x >>> 64).truncate 128 }

/-- The oldest completion of a port, if its SUBMIT has had its answer and the pulse that comes before it has begun (R339,
R343). -/
def State.nextPosted (s : State) (f : Nat) : Option RespBeat :=
  let p := s.port f
  match p.posted with
  | [] => none
  | (k, b) :: _ =>
    if p.cmds.any (fun c => c.task = some k) || p.pulseFirst.any (fun e => e.1 = k && s.pulseDue e.2.1 e.2.2) then none else some b

/-- A port offers its oldest completion, or nothing where there is none to offer (R338, R339). -/
def State.offerPosted (s : State) (f : Nat) : State :=
  match s.nextPosted f with
  | some b => s.onPort f (fun p =>
      { p with offered := [b], offeredAt := some s.now, posted := p.posted.drop 1,
               pulseFirst := p.pulseFirst.filter (fun e => (p.posted.drop 1).any (fun q => q.1 = e.1)) })
  | none => s.onPort f (fun p => { p with offered := [], offeredAt := none })

/-- The beats that follow an answer: a DESC_READ has one continuation, a rejected one too (R338). What a rejected one carries
the spec does not state: a free value (log 24). -/
def State.continuationOf (s : State) (c : PCmd) (a : Ans) : List RespBeat × State :=
  match a.cont with
  | some x => ([c.continuation x], s)
  | none =>
    if c.op ≠ 0x0F then ([], s)
    else
      let x := BitVec.ofNat 192 (((List.range 6).map (fun i => (Config.freeWord (s.free + i)).toNat * 2 ^ (32 * i))).sum)
      ([c.continuation x], { s with free := s.free + 6 })

/-- ANSWER_OFFER: the beat that was offered has transferred, and the next is offered: the oldest command's answer with its
continuation, else a completion (R338, R339). -/
def execAnswerOffer (port : Fin 4) (s : State) : Out :=
  let f := port.val
  let p := s.port f
  if !s.serving || p.hung then .next s
  else
    match p.offered.drop 1 with
    | b :: r => .next (s.onPort f (fun p => { p with offered := b :: r, offeredAt := some s.now }))
    | [] =>
      match p.cmds with
      | [] => .next (s.offerPosted f)
      | c :: rest =>
        match (if c.owed = 0 then c.ans else none) with
        | some a =>
          let (more, s) := s.continuationOf c a
          .next (s.onPort f (fun p => { p with offered := c.beat a :: more, offeredAt := some s.now, cmds := rest }))
        | none => .next (s.offerPosted f)

/-- Every context of a master is torn down as by CTX_TEARDOWN, for a heartbeat missed (R324, R345). -/
def State.masterLost (s : State) (m : BitVec 12) : State :=
  let ids := (s.ctxs.filter (fun p => p.1 < 4096 && p.2.st ≠ .free && p.2.master = m)).map Prod.fst
  let s := s.each ids (fun s i => s.loseCtx (BitVec.ofNat 12 i) 4 true [])
  { s with expired := Tbl.set m.toNat true s.expired }

/-- Masters that own a context of this die. -/
def State.owners (s : State) : List (BitVec 12) :=
  ((s.ctxs.filter (fun p => p.1 < 4096 && p.2.st ≠ .free)).map (fun p => p.2.master)).eraseDups

/-- RESP_TIMEOUT: a beat has been offered for RESP_LIMIT; the port is HUNG, what it offers and owes is dropped, and its
masters count as having missed their heartbeat (R344, R345). -/
def execRespTimeout (port : Fin 4) (s : State) : Out :=
  let f := port.val
  match (s.port f).offeredAt with
  | none => .next s
  | some t =>
    if (s.port f).hung || s.now < t + s.respLimit * 125000 then .next s
    else
      let s := s.onPort f (fun p => { p with
        hung := true, offered := [], offeredAt := none, cmds := [], posted := [], pulseFirst := [] })
      .next ((s.owners.filter (fun m => s.portOf m.toNat = some f)).foldl (fun s m => s.masterLost m) s)

/-- End HUNG with empty channels (R345). -/
def State.clearHung (s : State) (f : Nat) : State :=
  if (s.port f).hung then
    s.onPort f (fun p => { p with
      hung := false, cmds := [], offered := [], offeredAt := none, posted := [], pulseFirst := [] })
  else s

/-- FRONT_CLEAR: the management endpoint's write of FRONT_CFG.CLEAR (R345). -/
def execFrontClear (port : Fin 4) (s : State) : Out := .next (s.clearHung port.val)

/-- BEAT_WITHDRAWN: counted, nothing else (R332). -/
def execBeatWithdrawn (port : Fin 4) (s : State) : Out :=
  .next (s.onPort port.val (fun p => { p with proto := satTo 255 (p.proto + 1) }))

/-- IRQ_PULSE: a line that is to pulse rises, at least 16 SCLK cycles (2 MCLK cycles) after its last rise (R343); before release
stage 4 it is held low (R399). -/
def execIrqPulse (port : Fin 4) (line : Fin 16) (s : State) : Out :=
  let i := Tbl.get Irq.fresh (s.port port.val).irq line.val
  let ready := match i.lastAt with
    | none => true
    | some t => decide (t + 2 ≤ s.now)
  if i.want && ready && s.start.st = 7 then
    .next (s.onPort port.val (fun p =>
      { p with irq := Tbl.set line.val { want := false, pulses := i.pulses + 1, lastAt := some s.now } p.irq }))
  else .next s

/-- RESERVED_OP_COMMAND: rejected; the write-data beats it declares are consumed (R335, R344). An OP code of the tables is
no reserved one. -/
def execReservedOpCommand (port : Fin 4) (b : CmdBeat) (op : Byte) (s : State) : Out :=
  let n := op.toNat
  if (1 ≤ n && n ≤ 0x11 && n ≠ 0x07) || n = 0x40 || n = 0x41 then .next s
  else .next (s.command port.val n 4 b false (fun s => (ansOf stRange 0, s)))

end Sys2Proof.Machine
end

