-- ==== Sys2Proof/Machine/HostCmds.lean ====
section
/-! DEFINITION. The host commands of Table 11-2 but SUBMIT (11). -/
namespace Sys2Proof.Machine

/-- Bits of ARG0. -/
def arg0Bits (b : CmdBeat) (lo w : Nat) : Nat := bitsN b.arg0.toNat lo w
/-- Bits of ARG1. -/
def arg1Bits (b : CmdBeat) (lo w : Nat) : Nat := bitsN b.arg1.toNat lo w

/-- A rejection. -/
def State.reject (s : State) (status : Nat) : Ans × State := (ansOf status 0, s)

/-- Success with a result word. -/
def State.ok (s : State) (result : Nat) : Ans × State := (ansOf 0 (BitVec.ofNat 64 result), s)

/-- Whether a master owns a context of this die (R301). -/
def State.ownsCtx (s : State) (mid : BitVec 12) (id : Nat) : Bool := (s.ctx id).st ≠ .free && (s.ctx id).master = mid

/-- Whether a master owns an object: its owner is a context of this die that the master owns (R301). -/
def State.ownsObj (s : State) (mid : BitVec 12) (slot : Nat) : Bool :=
  let o := s.obj slot
  o.ownerDie = s.die && s.ownsCtx mid o.owner.toNat

/-- A host command on a context. -/
def State.onOwnCtx (s : State) (f op : Nat) (b : CmdBeat) (run : State → Nat → Ans × State) : State :=
  s.command f op 0 b true (fun s =>
    let id := arg0Bits b 0 12
    if s.ownsCtx b.mid id then run s id else s.reject stRange)

/-- A host command on a live object of the master. -/
def State.onOwnObj (s : State) (f op : Nat) (b : CmdBeat) (fieldsOk : Bool) (run : State → Nat → Ans × State) : State :=
  s.command f op 0 b fieldsOk (fun s =>
    match s.live (BitVec.ofNat 32 (arg0Bits b 0 32)) none with
    | none => s.reject stHandle
    | some i => if s.ownsObj b.mid i then run s i else s.reject stHandle)

/-- A host command on an object of the master, freed or removed ones included while something holds them (R326). -/
def State.onKnownObj (s : State) (f op : Nat) (b : CmdBeat) (run : State → Nat → Ans × State) : State :=
  s.command f op 0 b true (fun s =>
    match s.known (BitVec.ofNat 32 (arg0Bits b 0 32)) with
    | none => s.reject stHandle
    | some i => if s.ownsObj b.mid i then run s i else s.reject stHandle)

/-- CTX_CREATE: a context in a partition of the die, under the lowest free ID, its counters cleared (R298, R302). -/
def execCtxCreate (port : Fin 4) (b : CmdBeat) (s : State) : Out :=
  .next (s.command port.val 0x01 0 b true (fun s =>
    let part := arg0Bits b 0 3
    if !s.partPresent part then s.reject stRange
    else
      match firstFrom (fun i => (s.ctx i).st = .free) 4096 0 with
      | none => s.reject stFull
      | some i => (s.setCtx i { Ctx.fresh with master := b.mid, part := part, st := .live }).ok i))

/-- CTX_RESET: at once in LOST, held in DRAINING, refused in LIVE and TEARDOWN (R300). -/
def execCtxReset (port : Fin 4) (b : CmdBeat) (s : State) : Out :=
  .next (s.onOwnCtx port.val 0x02 b (fun s id =>
    let x := s.ctx id
    match x.st with
    | .draining => (s.setCtx id { x with resetPend := true }).ok 0
    | .lost =>
      let s := s.setCtx id { x with st := .draining, resetPend := true }
      (s.settleCtx (BitVec.ofNat 12 id)).ok 0
    | _ => s.reject stRange))

/-- CTX_TEARDOWN: from any state but FREE; a loss that frees what the context owns (R300). -/
def execCtxTeardown (port : Fin 4) (b : CmdBeat) (s : State) : Out :=
  .next (s.onOwnCtx port.val 0x03 b (fun s id => (s.loseCtx (BitVec.ofNat 12 id) 5 true []).ok 0))

/-- HEARTBEAT: only refreshes the master's heartbeat (R324). -/
def execHeartbeat (port : Fin 4) (b : CmdBeat) (s : State) : Out :=
  .next (s.command port.val 0x04 0 b true (fun s => s.ok 0))

/-- QUEUE_OPEN: binds an IDLE queue of the context's partition (R302). -/
def execQueueOpen (port : Fin 4) (b : CmdBeat) (s : State) : Out :=
  .next (s.command port.val 0x05 0 b true (fun s =>
    let q := arg0Bits b 0 10
    let id := arg1Bits b 0 12
    let x := s.ctx id
    if !s.ownsCtx b.mid id then s.reject stRange
    else if s.queueTotal ≤ q || s.queuePart q ≠ x.part || s.queueState q ≠ .idle then s.reject stRange
    else if x.st ≠ .live then s.reject stLost
    else (s.onQueue q (fun y => { y with st := .open_, ctx := BitVec.ofNat 12 id, part := x.part, block := 0 })).ok 0))

/-- QUEUE_CLOSE: pending commands retire with CONTEXT_LOST in acceptance order and the queue is IDLE; a DRAINING queue
stays so until its context is done (R302, Table 11-8). -/
def execQueueClose (port : Fin 4) (b : CmdBeat) (s : State) : Out :=
  .next (s.command port.val 0x06 0 b true (fun s =>
    let q := arg0Bits b 0 10
    if s.queueMaster q ≠ some b.mid.toNat then s.reject stRange
    else
      let ks := (s.queue q).waiting
      let s := s.each ks (fun s k => s.retire k stLost)
      let s := if (s.queue q).st = .draining then s else s.onQueue q HostQ.toIdle
      s.ok ks.length))

/-- OBJ_ALLOC, its checks in the order of R302; kind 3 is a field violation (Table 12-5). -/
def execObjAlloc (port : Fin 4) (b : CmdBeat) (s : State) : Out :=
  let kind := arg0Bits b 22 2
  .next (s.command port.val 0x08 0 b (kind ≠ 3) (fun s =>
    let id := arg0Bits b 0 12
    let tier := arg0Bits b 12 2
    let home := arg0Bits b 16 5
    let size := arg1Bits b 0 32
    let x := s.ctx id
    if !s.ownsCtx b.mid id then s.reject stRange
    else if x.st ≠ .live then s.reject stLost
    else if tier = 3 || (kind = 2 && tier = 0) || (kind ≠ 2 && size = 0) then s.reject stRange
    else if tier ≠ 2 && !(s.active home && s.shape.part home = x.part) then s.reject stRange
    else
      let o : Obj := { Obj.fresh with part := x.part, owner := BitVec.ofNat 12 id, ownerDie := s.die, tier := tier,
                                      committed := kind = 1, home := if tier = 2 then 0 else home, size := size }
      match (if kind = 2 then s.allocateFence o else s.allocate o) with
      | none => s.reject stFull
      | some (i, s) => s.ok (s.handle i).toNat))

/-- OBJ_FREE: the generation advances at once (R305, R326). -/
def execObjFree (port : Fin 4) (b : CmdBeat) (s : State) : Out :=
  .next (s.onOwnObj port.val 0x09 b true (fun s i => (s.dropObj i .freed).ok 0))

/-- REF_ADD (R306). -/
def execRefAdd (port : Fin 4) (b : CmdBeat) (s : State) : Out :=
  .next (s.onOwnObj port.val 0x0A b true (fun s i =>
    let s := s.onObj i (fun o => { o with refs := o.refs + 1 })
    s.ok (s.obj i).refs))

/-- REF_DROP: fails at zero (R306). -/
def execRefDrop (port : Fin 4) (b : CmdBeat) (s : State) : Out :=
  .next (s.onKnownObj port.val 0x0B b (fun s i =>
    if (s.obj i).refs = 0 then s.reject stRange
    else
      let s := s.onObj i (fun o => { o with refs := o.refs - 1 })
      let n := (s.obj i).refs
      (s.settleObj i).ok n))

/-- PIN: the current version takes a reader and a tenant pin; the answer names it, and its cellar address (R307, R459). -/
def execPin (port : Fin 4) (b : CmdBeat) (s : State) : Out :=
  .next (s.onOwnObj port.val 0x0C b true (fun s i =>
    let o := s.obj i
    if o.policy.isSome then s.reject stHandle
    else
      let v := o.committed && s.current o
      let addr := if o.tier = 2 then s.winAddr (o.baseOf v * 65536 + (if o.fence then o.base1 * 64 else 0)) % 2 ^ 48 else 0
      let s := s.setObj i (if v then { o.addReader v with pins1 := o.pins1 + 1 } else { o.addReader v with pins0 := o.pins0 + 1 })
      s.ok (b2n v * 2 ^ 63 + addr)))

/-- UNPIN: fails for a version that holds no tenant pin (R307). -/
def execUnpin (port : Fin 4) (b : CmdBeat) (s : State) : Out :=
  .next (s.onKnownObj port.val 0x0D b (fun s i =>
    let o := s.obj i
    let v := arg1Bits b 0 1 = 1
    if (if v then o.pins1 else o.pins0) = 0 then s.reject stRange
    else
      let s := s.setObj i (if v then { o.dropReader v with pins1 := o.pins1 - 1 } else { o.dropReader v with pins0 := o.pins0 - 1 })
      (s.settleObj i).ok 0))

/-- SHARE: sets or clears SHARED; a sealed object only as its policy allows (R308, R459). -/
def execShare (port : Fin 4) (b : CmdBeat) (s : State) : Out :=
  .next (s.onOwnObj port.val 0x0E b true (fun s i =>
    let v : Bool := decide (arg1Bits b 0 1 = 1)
    match (s.obj i).policy with
    | some p => if v && !p.shareOk then s.reject stRange else (s.onObj i (fun o => { o with shared := v })).ok 0
    | none => (s.onObj i (fun o => { o with shared := v })).ok 0))

/-- STATE of a descriptor (Table 11-3). -/
def ObjSt.code : ObjSt → Nat
  | .free => 0
  | .live => 1
  | .freed => 2
  | .reclaim => 3
  | .removed => 4
  | .retired => 5

/-- The 32 bytes of a descriptor, as a number; bases of a sealed object read 0 (Table 11-3, R459). -/
def State.descriptor (s : State) (slot : Nat) : Nat :=
  let o := s.obj slot
  let writing := match o.writer with
    | some k => (s.task? k).isSome
    | none => false
  let w4 := o.owner.toNat + o.tier * 2 ^ 12 + b2n o.committed * 2 ^ 14 + b2n o.shared * 2 ^ 15
  let w6 := o.st.code + b2n o.vsel * 8 + b2n o.fence * 16 + b2n writing * 32
  let base (x : Nat) : Nat := if o.policy.isSome then 0 else x % 2 ^ 32
  (s.handle slot).toNat + (w4 + w6 * 2 ^ 16 + o.home * 2 ^ 24) * 2 ^ 32 + (o.size % 2 ^ 32) * 2 ^ 64 + base o.base0 * 2 ^ 96 +
    base o.base1 * 2 ^ 128 + (if writing then (o.writer.getD 0) % 2 ^ 32 else 0) * 2 ^ 160 + (o.readers0 % 65536) * 2 ^ 192 +
    (o.readers1 % 65536) * 2 ^ 208 + (o.refs % 2 ^ 32) * 2 ^ 224

/-- DESC_READ: bytes 0 to 7 in the answer, the rest in its continuation (R304, R338). -/
def execDescRead (port : Fin 4) (b : CmdBeat) (s : State) : Out :=
  .next (s.onKnownObj port.val 0x0F b (fun s i =>
    let d := s.descriptor i
    ({ status := 0, result := BitVec.ofNat 64 d, cont := some (BitVec.ofNat 192 (d / 2 ^ 64)) }, s)))

/-- FENCE_SIGNAL: the fence rises to the larger value; the answer is its word (R310, Table 11-2). -/
def execFenceSignal (port : Fin 4) (b : CmdBeat) (s : State) : Out :=
  .next (s.onOwnObj port.val 0x11 b (!b.arg1.getLsbD 63) (fun s i =>
    if !(s.obj i).fence then s.reject stHandle
    else
      let s := s.raiseFence i (arg1Bits b 0 63) 0
      s.ok (s.fenceWord i)))

end Sys2Proof.Machine
end

