-- ==== Sys2Proof/Machine/Tasks.lean ====
section
/-! DEFINITION. Dispatch, follow-ons, stage copies, commits, wait limits and wait cycles (09, 10, 11). -/
namespace Sys2Proof.Machine

/-! ### Resolution (R262, R263) -/

/-- What a task names: list index, handle, output role; 64 the paragraph, 65 the object list, 66 the weight object. -/
def Task.mentions (t : Task) : List (Nat × Word × Bool) :=
  ((List.range 64).zip t.objs).map (fun p => (p.1, p.2.1, p.2.2)) ++
    [(64, t.paragraph, false)] ++
    (if t.objs = [] then [] else [(65, BitVec.ofNat 32 (bitsN t.desc.toNat 160 32), false)]) ++
    (if t.weight = 0 then [] else [(66, t.weight, false)])

/-- Resolve one mention: an input to its current version, an output to the next; of another die's object the version, the size and
the tier are free values (R262; log 17). -/
def State.resolveOne (s : State) (m : Nat × Word × Bool) : Named :=
  let die := handleDie m.2.1
  let o := s.obj (handleSlot m.2.1)
  let ver := if die ≠ s.die then (Config.freeWord (s.free + m.1)).getLsbD 0
    else o.committed && (if m.2.2 then !s.current o else s.current o)
  { idx := m.1, die := die, slot := handleSlot m.2.1, output := m.2.2, ver := ver, bound := none,
    size := if die = s.die then 0 else (Config.freeWord (s.free + 67 + m.1)).toNat,
    tier := if die = s.die then 0 else (Config.freeWord (s.free + 134 + m.1)).toNat % 3 }

/-- Resolve everything a task names, in one step: readers of the inputs' versions rise, writers of the outputs are set
(R262). What was resolved at acceptance stays (R458). -/
def State.resolve (s : State) (k : Nat) : State :=
  match s.task? k with
  | none => s
  | some t =>
    if t.resolved then s
    else
      let old := t.named
      let fresh := (t.mentions.filter (fun m => !old.any (fun n => n.idx = m.1))).map s.resolveOne
      let t' := { t with named := old ++ fresh, resolved := true }
      let before := s.reads t
      let para := (t'.named.find? (fun n => n.idx = 64)).map (fun n => (n.slot, n.ver))
      let t' := { t' with paraSlot := (para.map Prod.fst).getD t.paraSlot, paraVer := (para.map Prod.snd).getD t.paraVer }
      let s := ({ s with free := s.free + 201 }).setTask k t'
      let s := ((s.reads t').filter (fun r => !before.contains r)).foldl (fun s r => s.onObj r.1 (fun o => o.addReader r.2)) s
      t'.named.foldl (fun s n =>
        if n.die = s.die ∧ n.output ∧ (s.obj n.slot).committed then s.onObj n.slot (fun o => { o with writer := some k }) else s) s

/-- Whether R263 holds a task. -/
def State.heldTask (s : State) (k : Nat) (t : Task) : Bool :=
  t.objs.any (fun e => e.2 && handleDie e.1 = s.die && s.heldBy k (s.obj (handleSlot e.1)))

/-- Whether an input of a task is a committed output of a task in flight (R285). -/
def State.inputPending (s : State) (t : Task) : Bool :=
  t.mentions.any (fun m => !m.2.2 && handleDie m.2.1 = s.die &&
    (match (s.obj (handleSlot m.2.1)).writer with
     | some w => (s.task? w).isSome && !s.committed w
     | none => false))

/-! ### The head of a queue (R316, R317, R325) -/

/-- How a wait stands: 0 not satisfied, 1 satisfied, 2 its fence poisoned or removed (R310, R325, R440). Of a fence of
another die this die knows nothing: a free value decides (log 17). -/
def State.waitOf (s : State) (w : Word × Nat) : Nat :=
  if handleDie w.1 ≠ s.die then (Config.freeWord s.free).toNat % 3
  else
    let i := handleSlot w.1
    if (s.obj i).st = .removed || 2 ^ 63 ≤ s.fenceWord i then 2 else if w.2 ≤ s.fenceWord i then 1 else 0

/-- How the head of a queue stands. -/
inductive Head where
  | none
  | poisoned (k : Nat)
  | wait (k : Nat)
  | held (k : Nat)
  | short (k : Nat)
  | ready (k : Nat)
deriving DecidableEq, Repr

/-- Idle clusters that a queue's head may take: urgent heads of the partition go first, by die and queue (R318). -/
def State.clustersFor (s : State) (q part : Nat) : List Nat :=
  let urgent := (s.queue q).urgent
  let remote := s.urgentFor.any (fun u => u.2 = part && (!urgent || u.1 < s.die))
  let near := s.queues.any (fun p => p.2.urgent && p.2.part = part && p.1 ≠ q && (!urgent || p.1 < q))
  if remote || near then [] else (List.range 32).filter (fun c => s.idle c && s.shape.part c = part)

/-- Whether the die may dispatch at all: in service, not stopped, no commit to be repeated (R267, R432), every task that a
coolant loss stopped released again (R434). -/
def State.mayDispatch (s : State) : Bool :=
  s.serving && !s.faults.stopped && !s.faults.thermal && s.commits.isEmpty &&
    !s.tasks.any (fun p => p.2.die = s.die && p.2.cause = some .coolant && (p.2.life = .held || p.2.life = .aborting))

/-- The head of a queue (R317). -/
def State.head (s : State) (q : Nat) : Head :=
  let y := s.queue q
  if !(y.st = .open_ || y.st = .blocked) || y.asked ≠ [] then .none
  else
    match y.waiting with
    | [] => .none
    | k :: _ =>
      match s.task? k with
      | none => .none
      | some t =>
        let ws := t.waits.map s.waitOf
        if ws.contains 2 then .poisoned k
        else if ws.contains 0 then .wait k
        else if s.heldTask k t then .held k
        else if (s.clustersFor q t.part).length < t.ncluster then .short k
        else .ready k

/-- Whether a queue's head could dispatch now. -/
def Head.due : Head → Bool
  | .ready _ => true
  | .poisoned _ => true
  | _ => false

/-- Whether another queue stands before q in the round-robin and could dispatch now (R317). -/
def State.before (s : State) (q : Nat) : Bool :=
  s.queues.any (fun p => p.1 ≠ q && (p.1 + 1023 - s.rrQueue) % 1024 < (q + 1023 - s.rrQueue) % 1024 && (s.head p.1).due)

/-- A head stays blocked for a cause: 1 fence wait, 2 hold, 3 clusters (Table 11-12). -/
def State.blockQueue (s : State) (q cause : Nat) : State :=
  s.onQueue q (fun y => { y with st := .blocked, block := cause, blockedAt := if y.st = .blocked then y.blockedAt else s.now })

/-- A blocked queue whose cause has ended is open again (Table 11-8). -/
def State.unblock (s : State) (q : Nat) : State :=
  s.onQueue q (fun y => if y.st = .blocked then { y with st := .open_, block := 0 } else y)

/-- What a start message tells another die of a task (R318): versions, sizes and tiers of the objects of its list in list order. -/
def State.startMsg (s : State) (t : Task) : StartMsg :=
  let ns := (List.range t.objs.length).filterMap (fun i => t.named.find? (fun n => n.idx = i))
  { seq := t.seq, context := t.ctx, part := BitVec.ofNat 3 t.part, desc := t.desc, objs := t.objs,
    vers := ns.map (fun n => b2n n.ver)
    sizes := ns.map (fun n => if n.die = s.die then (s.obj n.slot).size else n.size)
    tiers := ns.map (fun n => if n.die = s.die then (s.obj n.slot).tier else n.tier)
    layout := t.layout, outst := t.outst,
    after := (t.after.bind s.task?).map (fun p => p.seq) }

/-- Insert a die among others, ascending: task-relative numbers ascend by full coordinate (R89). -/
def insertDie (d : Nat × Nat) : List (Nat × Nat) → List (Nat × Nat)
  | [] => [d]
  | e :: r => if d.1 < e.1 then d :: e :: r else e :: insertDie d r

/-- Dispatch a queue's head: versions resolve, the task leaves the queue and begins on its clusters here; the other dies get
their start messages (R262, R317, R318). -/
def State.dispatch (s : State) (q k : Nat) (clusters : List Nat) (others : List (Nat × Nat)) : State :=
  let s := s.resolve k
  let s := s.onTask k (fun t =>
    { t with life := .running, clusters := clusters, started := [], total := t.ncluster, outst := (s.queue q).outstanding,
             layout := others.foldl (fun l d => insertDie d l) (if clusters = [] then [] else [(s.die, clusters.length)]) })
  let s := s.endUrgent q ((s.queue q).part)
  let s := { s.onQueue q (fun y => y.without k) with rrQueue := q }
  match s.task? k with
  | none => s
  | some t =>
    let s := (s.numbered t).foldl (fun s p => (s.onCluster p.1 (fun x => { x with resv := none })).begin p.1 k p.2) s
    others.foldl (fun s d => s.send d.1 (.start (s.startMsg t))) s

/-- Clusters reserved here for a queue's head. -/
def State.reserved (s : State) (q : Nat) : List Nat :=
  (List.range 32).filter (fun c => (s.cluster c).resv = some (s.die * 1024 + q))

/-- Whether the head of a queue, its clusters gathered, may be dispatched: no commit is to be repeated, no wait of it is poisoned
by now, and R263 does not hold it (R263, R267, R325). -/
def State.stillReady (s : State) (k : Nat) (t : Task) : Bool :=
  s.mayDispatch && !(t.waits.map s.waitOf).contains 2 && !s.heldTask k t

/-- The gathering of a head goes on: enough clusters dispatch it, if it may still run, else the next die is asked, else the
gathering has failed and eight failures in a row make it urgent (R318). -/
def State.gather (s : State) (q : Nat) : State :=
  let y := s.queue q
  match y.waiting with
  | [] => s
  | k :: _ =>
    match s.task? k with
    | none => s
    | some t =>
      let own := s.reserved q
      let have_ := own.length + y.got.foldl (fun n g => n + g.2) 0
      if t.ncluster ≤ have_ then
        if s.stillReady k t then s.dispatch q k own (y.got.filter (fun g => g.2 ≠ 0))
        else (s.ungather q).blockQueue q (if s.heldTask k t then 2 else 3)
      else
        match (s.otherDies t.part).find? (fun d => !y.asked.contains d) with
        | some d =>
          (s.onQueue q (fun y => { y with asked := y.asked ++ [d] })).send d (.reserve t.part (t.ncluster - have_) y.urgent)
        | none =>
          let s := s.ungather q
          s.onQueue q (fun y => { y with fails := y.fails + 1, urgent := decide (8 ≤ y.fails + 1) })

/-- A head that lacks clusters here begins to gather them from the partition's other dies (R318). -/
def State.startGather (s : State) (q k : Nat) : State :=
  match s.task? k with
  | none => s
  | some t =>
    let s := s.blockQueue q 3
    if s.otherDies t.part = [] then s
    else
      let s := s.each (s.clustersFor q t.part) (fun s c => s.onCluster c (fun x => { x with resv := some (s.die * 1024 + q) }))
      s.gather q

/-! ### Follow-ons (R284 to R291) -/

/-- The task of a queue that was dispatched last. -/
def State.lastOf (s : State) (q : Nat) : Option (Nat × Task) :=
  let age (t : Task) : Nat := (s.taskSeq - t.seq).toNat
  ((s.pendingOf q).filter (fun p => p.2.life ≠ .pending)).foldl (fun b p =>
    match b with
    | none => some p
    | some c => if age p.2 < age c.2 then some p else b) none

/-- The running task that a queue's head may follow: the same context, as many clusters (R284), with the conditions of R285 met. -/
def State.followable (s : State) (q : Nat) : Option (Nat × Nat × Task × Task) :=
  match s.head q, s.lastOf q with
  | .short k, some (p, t) =>
    (match s.task? k with
     | none => none
     | some f =>
       if t.life = .running && t.ctx = f.ctx && t.ncluster = f.ncluster && !s.inputPending f &&
          !t.clusters.any s.closing && !s.tasks.any (fun o => o.2.after = some p) then some (p, k, t, f)
       else none)
  | _, _ => none

/-- Dispatch a follow-on early, onto the clusters of the task it follows; the other dies of that one are told (R285, R291). -/
def State.dispatchEarly (s : State) (q p k : Nat) (t : Task) : State :=
  let s := s.resolve k
  let s := s.onTask k (fun f =>
    { f with life := .running, clusters := t.clusters, started := [], total := f.ncluster, outst := (s.queue q).outstanding,
             layout := t.layout, after := some p })
  let s := { s.onQueue q (fun y => y.without k) with rrQueue := q }
  match s.task? k with
  | none => s
  | some f => (f.layout.filter (fun d => d.1 ≠ s.die)).foldl (fun s d => s.send d.1 (.start (s.startMsg f))) s

/-- FOLLOW_ON_START: a cluster that has ended its task starts the follow-on at once, without a wipe (R285), also where the
task has retired meanwhile; so does a follow-on that was stopped with its predecessor, on every cluster anew (R288). -/
def execFollowOnStart (q : Fin 1024) (cl : Fin 32) (s : State) : Out :=
  let c := cl.val
  let x := s.cluster c
  match x.task with
  | none => .next s
  | some p =>
    if !s.mayDispatch || x.phase ≠ .ended || !s.usable c then .next s
    else
      let start (s : State) (k : Nat) : State := s.release c k x.rel
      let ended := s.endedFor p c
      match s.tasks.find? (fun f => (if ended then f.2.after = some p else f.1 = p && f.2.after.isSome) &&
          (f.2.die ≠ s.die || f.2.queue = q.val)) with
      | some (k, f) =>
        if s.policy f.part = 1 || (f.life = .running && f.started.contains c) || !(f.life = .running || f.life = .held) then .next s
        else .next (start (s.onTask k Task.again) k)
      | none =>
        match s.followable q.val with
        | none => .next s
        | some (p', k, t, f) => if !ended || p' ≠ p || s.policy f.part = 1 then .next s else .next (start (s.dispatchEarly q.val p k t) k)

/-- Under FILL_WEIGHTS a follow-on is dispatched early for its stage copies (R291). -/
def State.stageEarly (s : State) (q : Nat) : State :=
  match s.followable q with
  | none => s
  | some (p, k, t, f) =>
    if s.policy f.part = 1 then
      let s := s.dispatchEarly q p k t
      s.each t.clusters (fun s c => s.onCluster c (fun x => { x with stageFor := some k, staged := false, stagePaid := 0 }))
    else s

/-- TASK_DISPATCH: what a queue's head does when its turn comes (R316, R317, R325); one that may go but has to wait for its turn
leaves its queue open. -/
def execTaskDispatch (q : Fin 1024) (s : State) : Out :=
  let i := q.val
  let h := s.head i
  if !s.mayDispatch then .next (if h.due then s.unblock i else s)
  else
    let s := { s with free := s.free + 1 }
    match h with
    | .none => .next s
    | .poisoned k =>
      if s.before i then .next (s.unblock i)
      else
        let s := (match s.task? k with
          | none => s
          | some t =>
            if t.signal ≠ 0 ∧ handleDie t.signal = s.die then s.poisonFence (handleSlot t.signal)
            else if t.signal ≠ 0 then s.send (handleDie t.signal) (.fence t.signal (BitVec.ofNat 64 (2 ^ 63)))
            else s)
        .next (s.retire k stPoisoned)
    | .wait _ => .next (s.blockQueue i 1)
    | .held _ => .next (s.blockQueue i 2)
    | .short k =>
      let e := s.stageEarly i
      if (e.task? k).any (fun t => t.life = .running) then .next e else .next (s.startGather i k)
    | .ready k =>
      if s.before i then .next (s.unblock i)
      else
        match s.task? k with
        | none => .next s
        | some t => .next (s.dispatch i k ((s.clustersFor i t.part).take t.ncluster) [])

/-! ### Wipes and stage copies (R290 to R292, R319) -/

/-- WIPE_DONE: after 500 MCLK cycles the working space of every shelf and the larder is zero, and the cluster goes on (R26,
R319). -/
def execWipeDone (cl : Fin 32) (s : State) : Out :=
  let c := cl.val
  let x := s.cluster c
  match x.task, s.clusterTask c with
  | some k, some t =>
    if x.phase ≠ .wiping || s.now < x.startAt + 500 then .next s
    else
      let s := s.each (List.range 17) (fun s p => s.clear (shelfAt (c * 17 + p) 0) (s.shelfWork t.part))
      let s := s.clear (larderAt c 0) (s.larderWork t.part)
      .next (s.stageOrRelease c k x.rel)
  | _, _ => .next s

/-- Copy listed bytes of a range to another. -/
def memMove (src dst n : Nat) (m : Memory) : Memory :=
  (m.filter (fun c => src ≤ c.1 && c.1 < src + n)).foldl (fun m c => memSet (c.1 - src + dst) c.2 m) (memClear dst (dst + n) m)

/-- Copy bytes of an object's version to a flat address, zeros beyond its end (R290). -/
def State.copyOut (s : State) (o : Obj) (ver : Bool) (from_ n dst : Nat) : State :=
  let s := s.clear dst n
  let n := min n (o.size - from_)
  if o.tier = 0 then
    let slice := s.granules 0 o.size * s.granule 0 / s.tpc
    s.each s.tilesOf (fun s t =>
      let lo := max from_ (t * slice)
      let hi := min (from_ + n) ((t + 1) * slice)
      if lo < hi then
        { s with mem := memMove (shelfAt (s.tileKey o.home t) (o.baseOf ver * 128 + lo % slice)) (dst + (lo - from_)) (hi - lo) s.mem }
      else s)
  else
    match (s.objByte o ver from_).flat with
    | some a => { s with mem := memMove a dst n s.mem }
    | none => s

/-- A bucket after n granules. -/
def HostQ.pay (q : HostQ) (wr : Bool) (n : Nat) : HostQ :=
  if wr then (if q.rateWr = 0 then q else { q with bucketWr := q.bucketWr - 64 * n })
  else if q.rateRd = 0 then q else { q with bucketRd := q.bucketRd - 64 * n }

/-- Task-relative number of a cluster of this die in a task. -/
def State.relOf (s : State) (t : Task) (c : Nat) : Nat :=
  relBase s.die t.layout + ((t.clusters.findIdx? (fun d => d = c)).getD 0)

/-- The cellar granules that a cluster's stage copy reads: of an object of this die's cellar where they start, of one of another
die's none, and how many (R275, R290). -/
def State.stageNeed (s : State) (c : Nat) (t : Task) : Option Nat × Nat :=
  match t.named.find? (fun n => n.idx = 66) with
  | none => (none, 0)
  | some n =>
    let quarter := s.larderWork t.part / 4
    let o := s.obj n.slot
    let from_ := s.relOf t c * quarter
    let bytes := Nat.min quarter (s.sizeOf n - from_)
    if n.die = s.die then
      if o.tier = 2 then (some (s.winAddr (o.baseOf n.ver * 65536) + from_), (bytes + 63) / 64) else (none, 0)
    else (none, if n.tier = 2 then (bytes + 63) / 64 else 0)

/-- STAGE_COPY_DONE: a cluster's slice of the weight object is in the stage buffer that its running task does not use; an
error in the copy, met outside the cellar, is a fault of the run it is for (R290 to R292). A copy from the cellar is not done
while granules of it are unpaid or on their way (R275, R276). -/
def execStageCopyDone (cl : Fin 32) (ok : Bool) (s : State) : Out :=
  let c := cl.val
  let x := s.cluster c
  match x.stageFor with
  | none => .next s
  | some k =>
    match s.task? k with
    | none => .next s
    | some t =>
      let w := t.named.find? (fun n => n.idx = 66)
      if x.staged || x.phase = .wiping || x.stagePaid < (s.stageNeed c t).2 || s.onTheWay (fun g => g.stageOf c) then .next s
      else if !ok then .next (s.abortRun k (.fault 4 0 c 31))
      else
        let quarter := s.larderWork t.part / 4
        let dst := larderAt c (2 * quarter + (1 - x.stageSel) * quarter)
        let rel := s.relOf t c
        let s := (match w with
          | none => s.clear dst quarter
          | some n =>
            if n.die = s.die then
              (s.copyOut (s.obj n.slot) n.ver (rel * quarter) quarter dst).charge (s.ctxKey t.die t.ctx.toNat)
                (s.readCost n.die n.slot quarter + 20 * (quarter / 128))
            else
              ((s.clear dst quarter).putBytes dst
                ((List.range quarter).map (fun i => (Config.freeWord (s.free + i)).truncate 8))).spend n.die)
        let s := s.onCluster c (fun x => { x with staged := true, phase := if x.phase = .staging then .ready else x.phase })
        .next (s.tryStaged k)

/-! ### Commit (R265 to R268, R287) -/

/-- Outputs of a task that this die commits: slot and version. -/
def State.outputsOf (s : State) (k : Nat) (t : Task) : List (Nat × Bool) :=
  ((t.named.filter (fun n => n.output && n.die = s.die && (s.obj n.slot).committed && (s.obj n.slot).writer = some k)).map
    (fun n => (n.slot, n.ver))).eraseDups

/-- Whether a task's predecessor lets it commit (R287). -/
def State.turnToCommit (s : State) (t : Task) : Bool :=
  match t.after with
  | none => true
  | some p => (s.task? p).isNone || s.committed p

/-- Step 3 of R265 on this die: outputs flip, writers are cleared, allocations and frees take effect (R259). -/
def State.applyRun (s : State) (k : Nat) (t : Task) : State :=
  let s := (s.outputsOf k t).foldl (fun s o => s.onObj o.1 (fun x =>
    { x with vsel := o.2, writer := none, checked := Tbl.del (b2n o.2) x.checked })) s
  let s := s.each t.allocs (fun s i => s.onObj i (fun o => { o with draft := none }))
  s.each t.frees (fun s i => s.dropObj i .freed)

/-- Step 5 of R265: the record is free again, the fence advances, the completion is posted. -/
def State.endCommit (s : State) (k : Nat) : State :=
  match s.task? k with
  | none => s
  | some t =>
    let s := { s with commits := s.commits.filter (fun r => r.task ≠ k) }
    let s :=
      if t.signal = 0 then s
      else if handleDie t.signal = s.die then
        (s.raiseFence (handleSlot t.signal) t.signalValue t.seq).pulseBefore t.port k (handleSlot t.signal)
      else s.send (handleDie t.signal) (.fence t.signal (BitVec.ofNat 64 (t.signalValue % 2 ^ 63)))
    s.retire k (if t.rerun then stRetried else stDone)

/-- Steps 3 to 5 of R265. -/
def State.finishCommit (s : State) (k : Nat) : State :=
  match s.task? k with
  | none => s
  | some t => (s.applyRun k t).endCommit k

/-- Bytes 0 to 27 of a commit record (Table 09-6). -/
def CommitRec.bytes (r : CommitRec) : List Byte :=
  leBytes 4 r.seq.toNat ++ leBytes 2 (r.ctx.toNat + r.part * 2 ^ 12) ++ leBytes 1 r.st ++ leBytes 1 r.outs.length ++
    leBytes 4 r.fence.toNat ++ leBytes 4 0 ++ leBytes 8 (r.value.toNat % 2 ^ 63) ++ leBytes 4 0

/-- A commit record with its CRC (R266). -/
def CommitRec.seal (r : CommitRec) : CommitRec := { r with crc := crc32c r.bytes }

/-- Whether a commit record's CRC holds. -/
def CommitRec.ok (r : CommitRec) : Bool := r.crc = crc32c r.bytes

/-- The commit record of a task, in state committed (R265). -/
def Task.commitRec (t : Task) (outs : List Nat) : CommitRec :=
  CommitRec.seal { task := t.key, seq := t.seq, ctx := t.ctx, part := t.part, st := 1, outs := outs, fence := t.signal,
                   value := BitVec.ofNat 64 t.signalValue, crc := 0 }

/-- The records of the commit table with one put in place of its task's. -/
def State.putRec (s : State) (r : CommitRec) : State :=
  { s with commits := s.commits.filter (fun q => q.task ≠ r.task) ++ [r] }

/-- Whether this die commits a task: it holds the committed outputs, or it dispatched a task that has them on no other die (R258,
R264; log 17). -/
def State.commitsHere (s : State) (k : Nat) (t : Task) : Bool :=
  s.outputsOf k t ≠ [] || (t.die = s.die && s.commitDie t = s.die)

/-- TASK_COMMIT: the commit record is written, then the rest follows (R265). `cut` says how far it comes before a fault, a stop or
a reload interrupts it (R267): 0 not interrupted, 1 within the write of the record, 2 after the commit point, 3 after the record
is retired. A die that does not commit the task applies what its clusters allocated and freed, and lets them go; the
dispatching die posts the completion, the command standing for the commit die's word (log 17). -/
def execTaskCommit (task : Nat) (cut : Fin 4) (s : State) : Out :=
  match s.task? task with
  | none => .next s
  | some t =>
    if t.life ≠ .running || !s.endedEverywhere t || !s.turnToCommit t || s.commits.any (fun r => r.task = task) then .next s
    else if !s.commitsHere task t then .next ((s.applyRun task t).retire task (if t.rerun then stRetried else stDone))
    else if 512 ≤ s.commits.length then .next { s with fullSeen := true }
    else
      let r := t.commitRec ((s.outputsOf task t).map Prod.fst)
      let committing (s : State) : State := s.onTask task (fun t => { t with life := .committing })
      match cut.val with
      | 0 => .next ((committing (s.putRec r)).finishCommit task)
      | 1 =>
        let (w, s) := s.freeWord
        .next (s.putRec { r with crc := w })
      | 2 => .next (committing (s.putRec r))
      | _ => .next (((committing (s.putRec r)).applyRun task t).putRec (CommitRec.seal { r with st := 2 }))

/-- Steps 3 to 5 of R265 for a record whose task is known no more, after a loss of power: what it still names flips, its
fence advances, and the record is free. -/
def State.finishOrphan (s : State) (r : CommitRec) : State :=
  let s := s.each r.outs (fun s i =>
    if (s.obj i).writer = some r.task then s.onObj i (fun o => { o with vsel := !o.vsel, writer := none }) else s)
  let s := { s with commits := s.commits.filter (fun q => q.task ≠ r.task) }
  match s.live r.fence none with
  | some i => if (s.obj i).fence then s.raiseFence i r.value.toNat r.seq else s
  | none => s

/-- Repeat an interrupted commit from its record, steps 3 to 5 or the last of them; a record whose CRC fails counts as free and
its task did not commit (R267). -/
def State.redoCommit (s : State) (task : Nat) : State :=
  match s.commits.find? (fun r => r.task = task) with
  | none => s
  | some r =>
    if r.ok then
      let s := { s with redo := satTo 255 (s.redo + 1) }
      if (s.task? task).isNone then s.finishOrphan r
      else if r.st = 2 then s.endCommit task
      else (s.onTask task (fun t => { t with life := .committing })).finishCommit task
    else
      let s := { s with badCrc := satTo 255 (s.badCrc + 1), commits := s.commits.filter (fun r => r.task ≠ task) }
      s.onTask task (fun t => if t.life = .committing then { t with life := .running } else t)

/-- COMMIT_REDO: an interrupted commit is repeated once the die serves again (R267). -/
def execCommitRedo (task : Nat) (s : State) : Out := .next (if s.start.st = 7 then s.redoCommit task else s)

/-! ### Wait limits and wait cycles (R327 to R330) -/

/-- WAIT_LIMIT_EXPIRE: a head blocked for WAIT_LIMIT by a wait that still stands ends with TIMEOUT; not while the package is
stopped (R330, R433). -/
def execWaitLimitExpire (q : Fin 1024) (s : State) : Out :=
  let y := s.queue q.val
  match y.waiting with
  | [] => .next s
  | k :: _ =>
    let waits := match s.task? k with
      | none => []
      | some t => t.waits.map s.waitOf
    if y.st = .blocked && y.block = 1 && waits.contains 0 && !waits.contains 2 && !s.faults.stopped && !s.faults.thermal &&
        decide (y.blockedAt + y.waitLimit * 125000 ≤ s.now) then .next (s.retire k stTimeout)
    else .next s

/-- The task at the head of a queue. -/
def State.headTask (s : State) (q : Nat) : Option (Nat × Task) :=
  match (s.queue q).waiting with
  | [] => none
  | k :: _ => (s.task? k).map (fun t => (k, t))

/-- The wait edges of a queue: to the queues that hold a task which signals an unsatisfied wait's fence, or which holds the
head under R263 (R327). -/
def State.edges (s : State) (q : Nat) : List Nat :=
  match s.headTask q with
  | none => []
  | some (k, t) =>
    let y := s.queue q
    let mine := s.tasks.filter (fun p => p.2.die = s.die)
    let waits := (t.waits.filter (fun w => handleDie w.1 = s.die && s.waitOf w = 0)).map Prod.fst
    let sig := if y.block = 1 then (mine.filter (fun p => p.2.signal ≠ 0 && waits.contains p.2.signal)).map (fun p => p.2.queue) else []
    let held := if y.block = 2 then
        t.objs.flatMap (fun e =>
          if e.2 && handleDie e.1 = s.die && s.heldBy k (s.obj (handleSlot e.1)) then
            let i := handleSlot e.1
            let next := !s.current (s.obj i)
            (mine.filter (fun p => p.1 ≠ k && ((s.obj i).writer = some p.1 || (s.reads p.2).contains (i, next)))).map (fun p => p.2.queue)
          else [])
      else []
    (sig ++ held).eraseDups

/-- Queues reached from a list along edges within a set, with fuel. -/
def reach (edges : Nat → List Nat) (within : List Nat) : Nat → List Nat → List Nat
  | 0, seen => seen
  | n + 1, seen =>
    let more := ((seen.flatMap edges).filter (fun p => within.contains p && !seen.contains p)).eraseDups
    if more = [] then seen else reach edges within n (seen ++ more)

/-- Age of a head: a higher sequence is younger (R315). -/
def State.ageOf (s : State) (q : Nat) : Nat :=
  match s.headTask q with
  | none => 0
  | some (_, t) => (s.taskSeq - t.seq).toNat

/-- The next victim among blocked queues: of the cycles there are, the lowest of their highest heads (R329). -/
def State.victim (s : State) (qs : List Nat) : Option Nat :=
  let onCycle := qs.filter (fun q =>
    let within := qs.filter (fun p => s.ageOf q ≤ s.ageOf p)
    (reach s.edges within qs.length ((s.edges q).filter (fun p => within.contains p))).contains q)
  onCycle.foldl (fun (b : Option Nat) q =>
    match b with
    | none => some q
    | some p => if s.ageOf p < s.ageOf q then some q else b) none

/-- Break the cycles found, one victim after another (R329). -/
def State.breakCycles : Nat → List Nat → State → State
  | 0, _, s => s
  | n + 1, qs, s =>
    match s.victim qs with
    | none => s
    | some q =>
      match s.headTask q with
      | none => s
      | some (k, t) =>
        let s := { s with scanCycles := satTo 65535 (s.scanCycles + 1), scanQueue := q, scanSeq := t.seq }
        let s := s.endAndLose k stCycle 2
        State.breakCycles n (qs.filter (fun p => (s.queue p).st = .blocked)) s

/-- WAIT_CYCLE_SCAN: every 125,000 MCLK cycles, over the queues blocked for as long (R328, R329). -/
def execWaitCycleScan (s : State) : Out :=
  if s.now < s.scanAt + 125000 then .next s
  else
    let qs := (s.queues.filter (fun p => p.2.st = .blocked && decide (p.2.blockedAt + 125000 ≤ s.now))).map Prod.fst
    .next (State.breakCycles qs.length qs { s with scanAt := s.now })

/-- HEARTBEAT_MISS: no command of a master that owns a context has come for HB_LIMIT (R324). -/
def execHeartbeatMiss (m : BitVec 12) (s : State) : Out :=
  if s.owners.contains m && decide (Tbl.get 0 s.hbAt m.toNat + Tbl.get 0x64 s.hbLimit m.toNat * 125000 ≤ s.now) then
    .next (s.masterLost m)
  else .next s

/-! ### Dispatch messages (R318) -/

/-- DISPATCH_RESERVE: idle clusters of the partition are reserved, up to the number named, and the number answered (R318). -/
def execDispatchReserve (src : Fin 16) (part : Fin 8) (count : BitVec 12) (urgent : Bool) (s : State) : Out :=
  let p := part.val
  let blocked := (s.urgentFor.any (fun u => u.2 = p && (!urgent || u.1 < src.val))) ||
    s.queues.any (fun y => y.2.urgent && y.2.part = p && (!urgent || s.die < src.val))
  let mine := if blocked || !s.serving || s.faults.stopped || s.faults.thermal then []
    else ((List.range 32).filter (fun c => s.idle c && s.shape.part c = p)).take count.toNat
  let s := s.each mine (fun s c => s.onCluster c (fun x => { x with resv := some (src.val * 1024) }))
  let s := if urgent && mine.length < count.toNat && !s.urgentFor.contains (src.val, p) then
      { s with urgentFor := (src.val, p) :: s.urgentFor }
    else s
  .next (s.send src.val (.answer mine.length))

/-- DISPATCH_ANSWER: the gathering of the head that asked goes on (R318). -/
def execDispatchAnswer (src : Fin 16) (count : BitVec 12) (s : State) : Out :=
  match s.queues.find? (fun p => p.2.asked.getLast? = some src.val && p.2.got.length < p.2.asked.length) with
  | none => .next s
  | some (q, _) => .next ((s.onQueue q (fun y => { y with got := y.got ++ [(src.val, count.toNat)] })).gather q)

/-- The task that a start message brings to this die. -/
def State.guest (s : State) (die : Nat) (m : StartMsg) (clusters : List Nat) : Task :=
  let desc := m.desc
  let h : Word := BitVec.ofNat 32 (bitsN desc.toNat 32 32)
  { seq := m.seq, die := die, port := 0, tag := 0, mid := 0, queue := 0, ctx := m.context, part := m.part.toNat, desc := desc,
    objs := m.objs, refs := [], named := [], paraSlot := handleSlot h, paraVer := false, life := .running, clusters := clusters,
    started := [], total := m.layout.foldl (fun n d => n + d.2) 0, layout := m.layout, stops := 0, outst := m.outst, used := false,
    rerun := false, firstAddr := 0, cause := none, nans := [], illegal := 0, seqErr := 0, warn := false, allocs := [], frees := [],
    reports := [], after := none, resolved := false, log := [], accepted := s.now }

/-- Versions, sizes and tiers of other dies' objects are those of the start message (R262). -/
def Task.withVersions (t : Task) (here : Nat) (m : StartMsg) : Task :=
  { t with named := t.named.map (fun n =>
      if n.die ≠ here ∧ n.idx < 64 then
        { n with ver := m.vers.getD n.idx 0 = 1, size := m.sizes.getD n.idx 0, tier := m.tiers.getD n.idx 0 }
      else n) }

/-- The clusters that a start message finds for its task: those reserved for its die, or, for a follow-on, those of the task it
follows (R285, R318). -/
def State.startClusters (s : State) (src : Nat) (m : StartMsg) : List Nat :=
  match m.after with
  | some p => ((s.task? (taskKey src p)).map (fun t => t.clusters)).getD []
  | none => (List.range 32).filter (fun c => (s.cluster c).resv = some (src * 1024))

/-- A start message takes effect: it starts its task, or the re-run of one that is held here. It waits while an earlier run of
the task drains here, a commit is to be repeated, or R263 holds an output on this die (R263, R267, R295, R318, R424). -/
def State.takeStart (s : State) (src : Nat) (m : StartMsg) : State :=
  let k := taskKey src m.seq
  let later : State := { s with starts := s.starts ++ [(src, m)] }
  match s.task? k with
  | some t =>
    if t.life = .aborting || t.life = .copying then later
    else if t.life ≠ .held then s
    else
      let s := s.setTask k { t.again with rerun := true }
      (s.numbered t).foldl (fun s p => s.begin p.1 k p.2) s
  | none =>
    let mine := s.startClusters src m
    if mine = [] then s
    else
      let t := s.guest src m mine
      if !s.mayDispatch || s.heldTask k t then later
      else
        let s := (s.setTask k { t with after := m.after.map (taskKey src) }).resolve k
        let s := { s with urgentFor := s.urgentFor.filter (fun u => u ≠ (src, t.part)) }
        let s := s.onTask k (fun t => t.withVersions s.die m)
        if m.after.isSome then
          if s.policy t.part = 1 then
            s.each mine (fun s c => s.onCluster c (fun x => { x with stageFor := some k, staged := false, stagePaid := 0 }))
          else s
        else (s.numbered t).foldl (fun s p => (s.onCluster p.1 (fun x => { x with resv := none })).begin p.1 k p.2) s

/-- Start messages that wait here try again, in the order they came. -/
def State.tryStarts (s : State) : State := s.starts.foldl (fun s m => s.takeStart m.1 m.2) { s with starts := [] }

/-- DISPATCH_START: the clusters reserved for a die start its task, or, for a task that is held here, its re-run (R318,
R424). -/
def execDispatchStart (src : Fin 16) (m : StartMsg) (s : State) : Out := .next (s.takeStart src.val m)

/-- DISPATCH_CANCEL: the reservations for a die are released; where there are none, its urgent request is over (R318). One that
names a task tells that it has ended: what it still holds here goes (log 21). -/
def execDispatchCancel (body : CancelBody) (s : State) : Out :=
  let src := body.src
  if src.val = s.die then .next s
  else
    match body.task with
    | none =>
      let mine := (List.range 32).filter (fun c => (s.cluster c).resv = some (src.val * 1024))
      .next (if mine = [] then { s with urgentFor := s.urgentFor.filter (fun u => u.1 ≠ src.val) }
        else s.each mine (fun s c => s.onCluster c (fun x => { x with resv := none })))
    | some k =>
      let s := { s with starts := s.starts.filter (fun m => taskKey m.1 m.2.seq ≠ k) }
      match s.task? k with
      | none => .next s
      | some t =>
        if t.die ≠ src.val then .next s
        else if t.life = .held then .next (s.retire k stLost)
        else .next (s.abortRun k .lost)

/-- DISPATCH_IDLE: heads blocked for clusters of the partition gather again (R318). -/
def execDispatchIdle (src : Fin 16) (part : Fin 8) (s : State) : Out :=
  let s := if Tbl.get 0 s.peers (8 * src.val + part.val) = 0 then
      { s with peers := Tbl.set (8 * src.val + part.val) 1 s.peers }
    else s
  let qs := (s.queues.filter (fun p => p.2.st = .blocked && p.2.block = 3 && p.2.asked = [] && p.2.part = part.val)).map Prod.fst
  .next (s.each qs (fun s q =>
    match s.head q with
    | .short k => if s.mayDispatch then s.startGather q k else s
    | _ => s))

end Sys2Proof.Machine
end

