-- ==== Sys2Proof/Machine/Recovery.lean ====
section
/-! DEFINITION. What follows an abort, spares and re-runs (05, 10, 15). -/
namespace Sys2Proof.Machine

/-! ### After an abort (R295, R423) -/

/-- Whether nothing of a stopped run is in flight on this die: no access of its tiles, no granule that its sequencers or stage
copies asked for, and no comparison of a group it closed (R93, R295, R537). -/
def State.drainedRun (s : State) (k : Nat) : Bool :=
  (s.holding k).all (fun c => (List.range 17).all (fun p =>
    let t := Tbl.get Tile.fresh s.tiles (c * 17 + p)
    t.accs.isEmpty && t.verdicts.isEmpty) && !s.onTheWay (fun g => g.paraOf c)) &&
  (List.range 32).all (fun c => (s.cluster c).stageFor ≠ some k || !s.onTheWay (fun g => g.stageOf c))

/-- Whether the other dies of an aborted run of this die's task have told that it has drained there; a lost die tells nothing
(R295, R439). -/
def State.drainedAway (s : State) (t : Task) : Bool :=
  t.die ≠ s.die || t.layout.all (fun d => d.1 = s.die || s.lostDies.contains d.1 || t.drains.contains d.1)

/-- A die that is not the task's own tells that one that the run has drained here (R295; log 20). -/
def State.tellDrained (s : State) (k : Nat) (t : Task) : State := if t.die = s.die then s else s.send t.die (.abort k true)

/-- The trap record of a task, from its first event; a record whose event lies on another die is free in its place and
element (Table 03-4, R99, R537; log 20). -/
def State.trapRecord (s : State) (t : Task) : List Word × State :=
  match NanRec.first t.nans with
  | some n =>
    ([t.seq, BitVec.ofNat 32 (t.ctx.toNat + s.die / 2 * 2 ^ 12 + s.die % 2 * 2 ^ 15 + (n.cl / 4) * 2 ^ 16 + (n.cl % 4) * 2 ^ 19 + n.tile * 2 ^ 21 +
        n.slot * 2 ^ 25 + n.kind * 2 ^ 28 + 2 ^ 31),
      BitVec.ofNat 32 (n.clause % 2 ^ 20 + (n.verb % 256) * 2 ^ 20), BitVec.ofNat 32 (n.elem % 2 ^ 20)], s)
  | none =>
    let (a, s) := s.freeWord
    let (b, s) := s.freeWord
    let (c, s) := s.freeWord
    ([t.seq, BitVec.ofNat 32 (t.ctx.toNat + (bitsN a.toNat 12 18) * 2 ^ 12 + 2 ^ 31), BitVec.ofNat 32 (bitsN b.toNat 0 28),
      BitVec.ofNat 32 (bitsN c.toNat 0 20)], s)

/-- CELL of a log entry: the place of a class 1 fault that was located (Table 15-4). -/
def cellOf (cls addr : Nat) : Nat := if cls = 1 then addr else 0xFF

/-- WHERE of a log entry: the frame of classes 5 to 7 and 12, the cellar address of classes 8 and 9 (Table 15-4). -/
def whereOf (cls addr : Nat) : Nat :=
  if 5 ≤ cls && cls ≤ 7 || cls = 12 then addr % 2 ^ 24 else if cls = 8 || cls = 9 then bitsN addr 6 32 else 0

/-- The address that a second failure is compared with: a cellar address of classes 8 and 9, else one that no cellar has (R296,
R423). -/
def firstAddrOf (cls addr : Nat) : Nat := if cls = 8 || cls = 9 then addr else 2 ^ 48

/-- Log a fault that is charged to a run, where it was detected on this die (R442). -/
def State.logCharged (s : State) (t : Task) (cls action addr cl tile : Nat) : State :=
  if cls = 0 then s else s.logFault (t.entryFor cls action cl tile (cellOf cls addr) (whereOf cls addr))

/-- A task waits for its re-run. -/
def State.hold (s : State) (k : Nat) : State := s.onTask k (fun t => { t with life := .held })

/-- A fault ends a run of another die's task here: that die decides what follows, and the task is held until it says (R318,
R423); a spare takes a failed tile's place at once (R425). -/
def State.guestFault (s : State) (k : Nat) (t : Task) (cls addr cl tile : Nat) : State :=
  let sp := (s.cluster cl).spare
  let swap := 1 ≤ cls && cls ≤ 3 && tile < 16 && !t.used && !sp.active && !sp.fused
  let s := s.logCharged t cls (if swap then 1 else 2) addr cl tile
  s.onTask k (fun t => { t with used := true, firstAddr := firstAddrOf cls addr, life := if swap then .copying else .held })

/-- A fault of classes 1 to 11 ends a run (R423): the first takes the task's allowance, a second ends the task. Class 0 is a
fault that another die told of (log 20). -/
def State.afterFault (s : State) (k : Nat) (t : Task) (cls addr cl tile : Nat) : State :=
  if t.die ≠ s.die then s.guestFault k t cls addr cl tile
  else if t.used then
    if (cls = 8 || cls = 9) && addr = t.firstAddr then
      let s := s.logCharged t cls 4 addr cl tile
      let s := s.onCtx (s.ctxKey t.die t.ctx.toNat) (fun x => { x with stream := some (addr, t.seq.toNat, cellarPortOf addr) })
      s.retire k stStream
    else (s.logCharged t cls 3 addr cl tile).endAndLose k stUncorrectable 1
  else
    let sp := (s.cluster cl).spare
    let swap := 1 ≤ cls && cls ≤ 3 && tile < 16 && !sp.active && !sp.fused
    let s := s.logCharged t cls (if swap then 1 else 2) addr cl tile
    let s := { s with faults := { s.faults with retried := satTo 255 (s.faults.retried + 1) } }
    s.onTask k (fun t => { t with used := true, firstAddr := firstAddrOf cls addr, life := if swap then .copying else .held })

/-- Whether a stopped task must give its clusters back to the task it started early behind (R288). -/
def State.yields (s : State) (t : Task) : Option Nat :=
  match t.after with
  | none => none
  | some p =>
    match s.task? p with
    | none => none
    | some q => if q.life = .aborting || q.life = .held || q.life = .copying then some p else none

/-- Give a task's clusters to its predecessor. -/
def State.giveBack (s : State) (k p : Nat) : State :=
  s.each (s.holding k) (fun s c => s.onCluster c (fun x => { x with task := some p, phase := .stopped }))

/-- What follows once an aborted run has drained (R295, R423, R430, R435). A task of another die is held until that die says
more (R318). -/
def State.afterAbort (s : State) (k : Nat) (t : Task) : State :=
  let back := s.yields t
  let s := match back with
    | some p => s.giveBack k p
    | none => s
  let s := match t.cause with
    | some .lost => s.retire k stLost
    | some .capacity =>
      (s.logFault (t.entryFor 14 5 (t.clusters.headD 0) 31 0xFF 0)).retire k stCapacity
    | some .budget => if t.die = s.die then s.retire k stTimeout else s.hold k
    | some .nan =>
      let (r, s) := s.trapRecord t
      let s := s.onCtx (s.ctxKey t.die t.ctx.toNat) (fun x => { x with trap := r })
      if t.die = s.die then s.retire k stNan else s.hold k
    | some .coolant => if t.noResub && t.die = s.die then s.retire k stCoolant else s.hold k
    | some .followOn => s.hold k
    | some (.fault cls addr cl tile) => s.afterFault k t cls addr cl tile
    | none => s.hold k
  match back with
  | none => s
  | some _ =>
    s.onTask k (fun t =>
      if t.life = .held || t.life = .copying then
        { t with life := .held, rerun := t.rerun || t.cause ≠ some .followOn, cause := some .followOn }
      else t)

/-- ABORT_DRAIN_END: every transfer of an aborted run has completed or been discarded, on every die of it; what it allocated is
reclaimed, and the task ends or is to run again (R259, R295, R423). A start message that waited for it takes effect. -/
def execAbortDrainEnd (task : Nat) (s : State) : Out :=
  match s.task? task with
  | none => .next s
  | some t =>
    if t.life ≠ .aborting || !s.drainedRun task || !s.drainedAway t then .next s
    else
      let s := s.each (List.range 32) (fun s c =>
        if (s.cluster c).stageFor = some task then s.onCluster c (fun x => { x with staged := false, stagePaid := 0 }) else s)
      .next (((s.undo task).afterAbort task t).tellDrained task t).tryStarts

/-- NETWORK_FAULT: a parity error or timeout of the on-die network or of a run's dispatcher state is a fault of class 11 of
that run (R421). -/
def execNetworkFault (task : Nat) (s : State) : Out :=
  match s.task? task with
  | none => .next s
  | some t => .next (s.abortRun task (.fault 11 0 (t.clusters.headD 0) 31))

/-! ### Spares (R141 to R145, R425 to R427) -/

/-- Objects whose storage in a cluster's shelves holds an offset. -/
def State.shelfOwners (s : State) (c off : Nat) : List Nat :=
  (s.objs.filter (fun p => p.2.st = .live && p.2.tier = 0 && p.2.home = c &&
    (s.rangesOf p.2).any (fun r => decide (r.1 * 128 ≤ off) && decide (off < (r.1 + r.2) * 128)))).map Prod.fst

/-- SPARE_COPY_DONE: the failed tile's shelf is in the spare's, and the spare takes its logical number; a word that could not
be read removes its object, or is zero in working space (R425). The task waits for its re-run. -/
def execSpareCopyDone (cl : Fin 32) (badWord : Option (BitVec 19)) (s : State) : Out :=
  let c := cl.val
  match (s.cluster c).task, s.clusterTask c with
  | some k, some t =>
    (match t.life, t.cause with
     | .copying, some (.fault _ _ cl' tile) =>
       if cl' ≠ c then .next s
       else
         let s := { s with mem := memMove (shelfAt (c * 17 + tile) 0) (shelfAt (c * 17 + 16) 0) s.shelfSize s.mem }
         let s := s.onCluster c (fun x =>
           { x with spare := { target := tile, active := true, fused := false, release := false,
                               count := satTo 255 (x.spare.count + 1) } })
         let s := { s with faults := { s.faults with subst := satTo 255 (s.faults.subst + 1) } }
         let s := (s.hold k).tryStarts
         .next (match badWord with
           | none => s
           | some w =>
             let off := w.toNat / 4 * 4
             let s := s.clear (shelfAt (c * 17 + 16) off) 4
             (match s.shelfOwners c off with
              | [] => s
              | os => (s.logFault (eventEntry 14 5 c 0)).removeObjs os []))
     | _, _ => .next s)
  | _, _ => .next s

/-- A write of 1 to SPARE_MAP.RELEASE (R145, R426): the copy back begins at the cluster's next task boundary. -/
def State.releaseSpare (s : State) (c : Nat) : State :=
  let x := s.cluster c
  if x.spare.fused || !x.spare.active then s
  else s.onCluster c (fun x =>
    { x with spare := { x.spare with release := true }
             phase := if x.task.isNone && x.phase = .idle then .copying else x.phase })

/-- SPARE_COPY_BACK_DONE: the original tile has its shelf again and the substitution ends, or it fails the copy and the
substitution stays (R426). -/
def execSpareCopyBackDone (cl : Fin 32) (ok : Bool) (s : State) : Out :=
  let c := cl.val
  let x := s.cluster c
  if x.phase ≠ .copying then .next s
  else
    let s := if ok then
        { s with mem := memMove (shelfAt (c * 17 + 16) 0) (shelfAt (c * 17 + x.spare.target) 0) s.shelfSize s.mem }
      else s
    let s := s.onCluster c (fun x =>
      { x with phase := if x.task.isNone then .idle else .ended
               spare := if ok then { x.spare with target := 0x1F, active := false, release := false }
                 else { x.spare with release := false } })
    .next ((s.tasks.foldl (fun s p => if p.2.after.isSome && p.2.after = x.task then s.tryStaged p.1 else s) s).tellIdle c)

/-! ### Re-runs (R424, R429) -/

/-- Whether a cluster of a held task may begin its re-run, or will be given to it as its predecessor ends there. -/
def State.rerunReady (s : State) (k : Nat) (t : Task) (c : Nat) : Bool :=
  let x := s.cluster c
  (x.task = some k && x.phase = .stopped) || (x.task.isSome && x.task = t.after) || s.idle c ||
    (x.task.isNone && x.phase = .idle && x.stageFor = some k)

/-- Release the re-run of a held task from its checkpoint, on the clusters it had (R424, R429). Its other dies get its start
message again (R318). -/
def State.rerun (s : State) (k : Nat) : State :=
  match s.task? k with
  | none => s
  | some t =>
    if t.life ≠ .held || t.die ≠ s.die || s.faults.stopped || s.faults.thermal || !t.clusters.all (s.rerunReady k t) ||
        (t.cause = some .followOn && t.clusters.any (fun c => (s.cluster c).task.isSome && (s.cluster c).task = t.after)) then s
    else
      let s := if t.cause = some .coolant then { s with faults := { s.faults with resub := satTo 65535 (s.faults.resub + 1) } }
        else s
      let s := s.onTask k Task.again
      let s := (s.numbered t).foldl (fun s p =>
        if (s.cluster p.1).task.isNone || (s.cluster p.1).task = some k then s.begin p.1 k p.2 else s) s
      let msg := s.startMsg t
      (t.layout.filter (fun d => d.1 ≠ s.die)).foldl (fun s d => s.send d.1 (.start msg)) s

/-- RERUN_RELEASE (R424, R428, R429). -/
def execRerunRelease (task : Nat) (s : State) : Out := .next (s.rerun task)

end Sys2Proof.Machine
end

