-- ==== Sys2Proof/Machine/Cellar.lean ====
section
/-! DEFINITION. The cellar: grants of offered steps, the ports' arbiters, responses and timeouts (09, 10, 12), and the
results of the extension ports (12). -/
namespace Sys2Proof.Machine

/-! ### Accesses as they wait for the cellar (R249, R277) -/

/-- Insert an access into a list in clause order. -/
def insertAcc (a : Access) : List Access → List Access
  | [] => [a]
  | b :: r => if a.seq < b.seq then a :: b :: r else b :: insertAcc a r

/-- The cellar steps that a tile offers, in clause order (R277). -/
def Tile.offers (t : Tile) : List Access :=
  (t.accs.filter (fun a => !a.granted && a.cellStep.isSome)).foldl (fun l a => insertAcc a l) []

/-! ### Buckets (R275, R276) -/

/-- Refill a queue's buckets for one SCLK cycle (R276). -/
def HostQ.refill (q : HostQ) : HostQ :=
  { q with bucketRd := if q.rateRd = 0 then q.bucketRd else min (q.bucketRd + q.rateRd) (q.depthRd * 1024)
           bucketWr := if q.rateWr = 0 then q.bucketWr else min (q.bucketWr + q.rateWr) (q.depthWr * 1024) }

/-- Whether a bucket is regulated: its RATE is not 0 (R276). -/
def HostQ.regulated (q : HostQ) (wr : Bool) : Bool := if wr then q.rateWr != 0 else q.rateRd != 0

/-- How many of n granules a bucket can pay for. -/
def HostQ.affords (q : HostQ) (wr : Bool) (n : Nat) : Nat :=
  if q.regulated wr then min n ((if wr then q.bucketWr else q.bucketRd) / 64) else n

/-- The bucket that a task's granules are charged to, by a number for its queue, and how many of n it can pay for now. Of a queue
of another die this die is told no rate: a free value decides whether the bucket pays (log 17). -/
def State.bucket (s : State) (t : Task) (wr : Bool) (n : Nat) : Nat × Bool × Nat × State :=
  if t.die = s.die then (t.queue, (s.queue t.queue).regulated wr, (s.queue t.queue).affords wr n, s)
  else
    let (w, s) := s.freeWord
    (1024 + t.key, true, if w.getLsbD 0 then n else 0, s)

/-- A task's bucket pays for n granules. -/
def State.payBucket (s : State) (t : Task) (wr : Bool) (n : Nat) : State :=
  if t.die = s.die then s.onQueue t.queue (fun q => q.pay wr n) else s

/-! ### Granting (R275 to R277, R281) -/

/-- One cycle of granting as it goes on: granules left of the 16, buckets and slots that are blocked, slots whose cycle has been
counted (R281). -/
structure Granting where
  st : State
  left : Nat
  buckets : List (Nat × Bool)
  slots : List (Nat × Nat)
  counted : List (Nat × Nat)

/-- A slot's cycle counts under a cause, unless it has counted already; the matrix slot waits for its escapes as a k step does, and
counts there (R281). -/
def Granting.count (g : Granting) (c key slot cause : Nat) : Granting :=
  if slot = 2 || g.counted.contains (key, slot) then g
  else { g with st := g.st.stall c cause, counted := (key, slot) :: g.counted }

/-- An access that has been granted is charged and its granules join their class queues, or its message goes to the die whose
cellar holds the object (R251, R275, R500). -/
def State.grantStep (s : State) (c t : Nat) (a : Access) (addr n : Nat) (wr : Bool) : State :=
  let key := s.tileKey c t
  let s := (s.onAcc key a.id (fun a => { a with granted := true })).chargeCl c (40 * n)
  if a.atCellar.isNone then s.sendAccess c t a
  else ((granulesOf addr a.width).zip (List.range n)).foldl (fun s p => s.enqueue (a.granuleOf key p.1 p.2 wr)) s

/-- One offered step: granted whole, or blocked with what comes after it in its slot and its bucket (R277). A step that is not
granted counts under cause 20; one to another die that finds no tag free, under 23 (R281, log 46). -/
def Granting.offer (g : Granting) (c t : Nat) (a : Access) : Granting :=
  let key := g.st.tileKey c t
  match a.cellStep, g.st.clusterTask c with
  | some (x, wr), some k =>
    let n := (granulesOf x a.width).length
    let block : Granting := { g with slots := (key, a.slot) :: g.slots }
    if g.slots.contains (key, a.slot) then g
    else if !(g.st.tile c t).clear a then block
    else if a.atCellar.isNone && !g.st.canSend (match a.rd, a.wr with
        | some (.remote d i v o _), _ => .remote d i v o false
        | none, some (.remote d i v o _) => .remote d i v o false
        | _, _ => .suppressed) then block.count c key a.slot 23
    else
      let (q, regulated, can, s) := g.st.bucket k wr n
      let g := { g with st := s }
      let block := { block with st := s }
      if regulated && (g.buckets.contains (q, wr) || can < n) then
        { block with buckets := (q, wr) :: g.buckets }.count c key a.slot 20
      else if g.left < n then
        { block with buckets := if regulated then (q, wr) :: g.buckets else g.buckets }.count c key a.slot 20
      else
        let s := (s.payBucket k wr n).grantStep c t a x n wr
        { g with st := { s with lastGrant := c }.onCluster c (fun y => { y with lastTile := t }), left := g.left - n }
  | _, _ => g

/-- The granules that a cluster's stage copy still has to ask for are granted after the slots' steps, as far as its queue's read
bucket and the cycle's 16 granules go (R275, R291; log 42). -/
def Granting.stage (g : Granting) (c : Nat) : Granting :=
  let x := g.st.cluster c
  match x.stageFor.bind g.st.task? with
  | none => g
  | some t =>
    let need := g.st.stageNeed c t
    if x.staged || x.phase = .wiping || need.2 ≤ x.stagePaid || g.left = 0 then g
    else
      let (_, _, can, s) := g.st.bucket t false (min g.left (need.2 - x.stagePaid))
      let s := (s.payBucket t false can).charge (s.ctxKey t.die t.ctx.toNat) (40 * can)
      let s := match need.1 with
        | none => s
        | some a => s.fetchStage c (a + 64 * x.stagePaid) (64 * can)
      { g with st := s.onCluster c (fun x => { x with stagePaid := x.stagePaid + can }), left := g.left - can }

/-- The cycle of a slot whose granted step waits for a full class queue counts under cause 22 (Table 10-1, R281). -/
def Granting.queueing (g : Granting) (c t : Nat) : Granting :=
  ((g.st.tile c t).accs.filter (fun a => a.waits != 0)).foldl (fun g a => g.count c (g.st.tileKey c t) a.slot 22) g

/-- CELLAR_STEP_GRANT: one SCLK cycle of the grant order over all clusters, tiles and steps (R276, R277). -/
def execCellarStepGrant (s : State) : Out :=
  let s := { s with queues := Tbl.mapVals (fun _ y => y.refill) s.queues }
  let cs := (List.range 32).map (fun i => (s.lastGrant + 1 + i) % 32)
  let g : Granting := { st := s, left := 16, buckets := [], slots := [], counted := [] }
  let g := cs.foldl (fun g c =>
    let ts := (List.range 16).map (fun i => ((s.cluster c).lastTile + 1 + i) % 16)
    if (s.cluster c).phase ≠ .running then g
    else ts.foldl (fun g t => if s.tpc ≤ t then g else (s.tile c t).offers.foldl (fun g a => g.offer c t a) g) g) g
  let g := (List.range 32).foldl (fun g c => g.stage c) g
  .next ((List.range 32).foldl (fun g c =>
    if (s.cluster c).phase ≠ .running then g else s.tilesOf.foldl (fun g t => g.queueing c t) g) g).st

/-! ### The port arbiter (R252, R347) -/

/-- The owner class of a cycle, and the credits after it (R252). -/
def owner (sh : Nat × Nat × Nat) (c : Int × Int × Int) : Nat × (Int × Int × Int) :=
  let a := c.1 + sh.1
  let b := c.2.1 + sh.2.1
  let d := c.2.2 + sh.2.2
  let o := if a < b then 1 else 0
  let o := if (if o = 1 then b else a) < d then 2 else o
  (o, (if o = 0 then a - 100 else a), (if o = 1 then b - 100 else b), (if o = 2 then d - 100 else d))

/-- The lowest tag that is neither outstanding nor quarantined (R347; which of them is the model's choice, log 23). -/
def CellarPort.freeTag (c : CellarPort) : Option Nat :=
  (List.range 256).find? (fun n => !c.tags.any (fun r => r.tag = n) && !c.quar.contains n)

/-- The class that is served: the owner if it has a granule, else the first that has (R252). -/
def CellarPort.served (c : CellarPort) (o : Nat) : Option Nat := ([o, 0, 1, 2].find? (fun k => c.classQ k ≠ []))

/-- CELLAR_PORT_ARBITRATE: one SCLK cycle in which a port can take a granule: granules that wait join their class queues as far as
those have room, the credits move, and the class that the cycle falls to issues its oldest granule (R252, R347, Table 10-1). Before
release stage 4 REQ_VALID is low (R399). -/
def execCellarPortArbitrate (port : Fin 16) (s : State) : Out :=
  let p := port.val
  let s := ((s.joinClass p 0).joinClass p 1).joinClass p 2
  let c := s.cport p
  if c.down || s.cellarLost || s.start.st ≠ 7 then .next s
  else
    match c.freeTag with
    | none => .next s
    | some n =>
      let sh := (s.shape.bwRead, s.shape.bwWrite, 100 - s.shape.bwRead - s.shape.bwWrite)
      let (o, cr) := owner sh (c.cred0, c.cred1, c.cred2)
      let c := { c with cred0 := cr.1, cred1 := cr.2.1, cred2 := cr.2.2 }
      match c.served o with
      | none => .next (s.onCport p (fun _ => c))
      | some k =>
        match c.classQ k with
        | [] => .next (s.onCport p (fun _ => c))
        | g :: r => .next (s.onCport p (fun _ => { c.setQ k r with tags := c.tags ++ [{ tag := n, gran := g, at_ := s.now }] }))

/-! ### Responses (R349 to R351) -/

/-- The data that a written granule leaves in the cellar: a store whose bytes an unordered access of its run also touches leaves
undefined data (R130, R167). A commit write is the engine's own, and its bytes are in memory from the commit on (log 18). -/
def State.landWrite (s : State) (g : Gran) (d : Entry) : State :=
  match g.src with
  | .commit => s
  | .access key id _ =>
    let c := key / 17
    let t := s.logical key
    let clash := match (Tbl.get Tile.fresh s.tiles key).accs.find? (fun a => a.id = id) with
      | none => false
      | some a => s.writeClash c t a
    if clash then
      let (e, s) := s.freeEntry
      s.putEnabled g.addr e g.be
    else s.putEnabled g.addr d g.be
  | _ => s.putEnabled g.addr d g.be

/-- A response ends an access's granule: the error is counted, the fault raised, the bytes take effect (R349). A response on
the wrong channel counts as code 2 (R350). What a read brings is what the memory behind the port holds from then on. -/
def State.finishGranule (s : State) (p : Nat) (g : Gran) (err cls : Nat) (data : Option Entry) : State :=
  let s := if err = 1 then s.onCport p (fun c => { c with corr := satTo 65535 (c.corr + 1) })
    else if err = 0 then s
    else s.countUncorr p
  if err ≤ 1 then
    let s := match g.wr, data with
      | some d, _ => s.landWrite g d
      | none, some d => s.putNat (cellarAt g.addr) 64 d.toNat
      | none, none => s
    s.deliver g err (if g.wr.isSome then none else data)
  else ((s.granuleFault g cls).writeLost g err).deliver g err none

/-- A response of a port: to an outstanding tag of its kind, to one of the other kind, late to a quarantined tag, or to none
(R349, R350, R351). -/
def State.respond (s : State) (p tag err : Nat) (wr : Bool) (data : Option Entry) : State :=
  let c := s.cport p
  match c.tags.find? (fun r => r.tag = tag) with
  | none =>
    if c.quar.contains tag then s.onCport p (fun c => { c with quar := c.quar.filter (fun n => n ≠ tag) })
    else s.onCport p (fun c => { c with badTag := satTo 255 (c.badTag + 1) })
  | some r =>
    let s := s.onCport p (fun c => { c with tags := c.tags.filter (fun q => q.tag ≠ tag) })
    if r.gran.wr.isSome = wr then s.finishGranule p r.gran err 8 data
    else
      (s.onCport p (fun c => { c with badTag := satTo 255 (c.badTag + 1) })).finishGranule p r.gran 2 8 none

/-- CELLAR_READ_RESPONSE (R349, R350). -/
def execCellarReadResponse (port : Fin 16) (tag : BitVec 8) (err : BitVec 2) (data : Entry) (s : State) : Out :=
  .next (s.respond port.val tag.toNat err.toNat false (some data))

/-- CELLAR_WRITE_RESPONSE (R349, R350). -/
def execCellarWriteResponse (port : Fin 16) (tag : BitVec 8) (err : BitVec 2) (s : State) : Out :=
  .next (s.respond port.val tag.toNat err.toNat true none)

/-- Every granule that waits at a port of a die whose cellar is lost completes as unserved (R351). -/
def State.flushPorts (s : State) : State :=
  let gs := (List.range 16).flatMap (fun p => (s.cport p).rdQ ++ (s.cport p).wrQ ++ (s.cport p).rmQ)
  let late := (List.range 16).flatMap (fun p => (s.cport p).waitQ)
  let s := s.each (List.range 16) (fun s p => s.onCport p (fun c => { c with rdQ := [], wrQ := [], rmQ := [], waitQ := [] }))
  let s := late.foldl (fun s g => s.waiter g (fun n => n - 1)) s
  (gs ++ late).foldl (fun s g => s.unserved g) s

/-- CELLAR_TAG_TIMEOUT: a tag outstanding for CELLAR_LIMIT is quarantined and its access fails; the 64th quarantined tag of a
port takes it down, and the die's cellar with it: of a port that is down no further tag is quarantined (R351, R357, R439). -/
def execCellarTagTimeout (port : Fin 16) (tag : BitVec 8) (s : State) : Out :=
  let p := port.val
  match (s.cport p).tags.find? (fun r => r.tag = tag.toNat) with
  | none => .next s
  | some r =>
    if s.now < r.at_ + s.cellarLimit * 125 then .next s
    else
      let s := s.onCport p (fun c =>
        { c with tags := c.tags.filter (fun q => q.tag ≠ tag.toNat), quar := if c.down then c.quar else tag.toNat :: c.quar,
                 timeouts := satTo 255 (c.timeouts + 1) })
      let s := ((s.granuleFault r.gran 9).writeLost r.gran 2).deliver r.gran 2 none
      if (s.cport p).quar.length < 64 || (s.cport p).down then .next s
      else
        let s := s.onCport p (fun c => { c with down := true })
        .next (if s.cellarLost then s else s.loseCellar.flushPorts)

/-! ### Results of the extension field (R213, R355, R356) -/

/-- A result that no issue is owed, or that comes while its region is loaded, is counted (R355, R356). -/
def State.unowed (s : State) (c : Nat) : State :=
  s.onCluster c (fun x => { x with extUnowed := satTo 255 (x.extUnowed + 1) })

/-- Whether an extension port takes a result now: the build has it, its region is out of reset, the tile's XQ has room, and the die
serves (R355, R356, R399: OUT_READY is low before release stage 4). A result for no tile, or for a region that is loaded, finds no
XQ that could be full. -/
def State.outReady (s : State) (c t : Nat) : Bool :=
  s.hasExt && s.start.st = 7 && (Tbl.get false s.reload.held (c / 4) || s.tpc ≤ t || (s.tile c t).room 15 != 0)

/-- EXT_RESULT: a result entry transfers where OUT_READY is high: it enters the tile's XQ under its issue's token, or is discarded
and counted as stale or unowed (R213, R355, R356). While XQ is full it waits, whatever it is. -/
def execExtResult (cl : Fin 32) (tile : Fin 16) (epoch : Fin 16) (data : Entry) (s : State) : Out :=
  let c := cl.val
  let t := tile.val
  let x := s.cluster c
  if !s.outReady c t then .next s
  else if Tbl.get false s.reload.held (c / 4) then .next (s.unowed c)
  else if epoch.val ≠ x.extEpoch then
    .next (s.onCluster c (fun x => { x with extStale := satTo 255 (x.extStale + 1) }))
  else if s.tpc ≤ t then .next (s.unowed c)
  else
    let y := s.tile c t
    match y.extOwed with
    | [] => .next (s.unowed c)
    | e :: r =>
      let y := y.push 15 data (tokenOf e.tmode e.tok e.first e.srcTok)
      let r := if e.owed ≤ 1 then r else { e with owed := e.owed - 1, first := false } :: r
      .next (s.setTile c t { y with extOwed := r })

end Sys2Proof.Machine
end

