-- ==== Sys2Proof/Machine/Fabric.lean ====
section
/-! DEFINITION. The logic cells of the fabric: their configuration bits, flip-flops and multiplexer trees (R358 to R361). -/
namespace Sys2Proof.Machine

/-! ### One cell (R358, Table 13-1) -/

/-- What a frame of the fabric holds. -/
def State.frame (s : State) (d : Nat) : BitVec 4096 := Tbl.get 0 s.fabric d

/-- Cell n of a frame, for n = 0 to 63 (R373). -/
def frameCell (x : BitVec 4096) (n : Nat) : BitVec 64 := x.extractLsb' (64 * n) 64

/-- LUT -/
def cellLut (c : BitVec 64) : BitVec 16 := c.extractLsb' 0 16
/-- FF_EN -/
def cellFfEn (c : BitVec 64) : Bool := c.getLsbD 16
/-- FF_INIT -/
def cellFfInit (c : BitVec 64) : Bool := c.getLsbD 17
/-- CE_EN -/
def cellCeEn (c : BitVec 64) : Bool := c.getLsbD 18
/-- SR_EN -/
def cellSrEn (c : BitVec 64) : Bool := c.getLsbD 19
/-- MUX_EN -/
def cellMuxEn (c : BitVec 64) : Bool := c.getLsbD 20
/-- MUX_CFG -/
def cellMuxCfg (c : BitVec 64) : Nat := bitsN c.toNat 21 3
/-- IN0 to IN3: the routing source of an input. -/
def cellSource (c : BitVec 64) (i : Nat) : Nat := bitsN c.toNat (24 + 10 * i) 10

/-- The table's output for the cell's inputs; with CE_EN it sees input 3 as 1. -/
def cellTable (c : BitVec 64) (ins : BitVec 4) : Bool :=
  (cellLut c).getLsbD (if cellCeEn c then ins ||| 8#4 else ins).toNat

/-- The cell's output: the flip-flop's with FF_EN, else the table's. -/
def cellOut (c : BitVec 64) (q : Bool) (ins : BitVec 4) : Bool := if cellFfEn c then q else cellTable c ins

/-- The flip-flop after one FCLK cycle: the block's reset line loads FF_INIT, input 3 enables the clock. Which of the two wins
the manual leaves open: the reset line (DESIGN CHOICE, log 50). -/
def cellNext (c : BitVec 64) (q : Bool) (ins : BitVec 4) (reset : Bool) : Bool :=
  if cellSrEn c && reset then cellFfInit c
  else if cellCeEn c && !ins.getLsbD 3 then q
  else cellTable c ins

/-! ### Logic blocks (R359, R360) -/

/-- A multiplexer of n stages: the leaf that the select lines name, stage 0 the lowest. -/
def muxPick (leaf : Nat → Bool) (sel : Nat → Bool) (n : Nat) : Bool :=
  leaf (((List.range n).map (fun k => b2n (sel k) * 2 ^ k)).sum)

/-- The select line of a stage in block b of a frame: the select input of the lowest cell that feeds the tree and whose MUX_CFG
names the stage; none drives 0. Which input of a cell selects is the licensee's routing, here `sels` (log 50). -/
def stageSelect (x : BitVec 4096) (b : Nat) (sels : BitVec 64) (k : Nat) : Bool :=
  match (List.range 16).find? (fun i =>
      let c := frameCell x (16 * b + i)
      cellMuxEn c && cellMuxCfg c = k) with
  | none => false
  | some i => sels.getLsbD (16 * b + i)

/-- The multiplexer tree of block b of a frame: four stages join the outputs of its 16 cells; a cell that does not feed it gives
0 (R360). -/
def blockMux (x : BitVec 4096) (b : Nat) (outs sels : BitVec 64) : Bool :=
  muxPick (fun i => cellMuxEn (frameCell x (16 * b + i)) && outs.getLsbD (16 * b + i)) (stageSelect x b sels) 4

/-- The fifth stage joins two adjacent blocks of one frame (R360). -/
def pairMux (x : BitVec 4096) (p : Nat) (outs sels : BitVec 64) : Bool :=
  if stageSelect x (2 * p) sels 4 then blockMux x (2 * p + 1) outs sels else blockMux x (2 * p) outs sels

/-- The 64 flip-flops of a frame when each holds its FF_INIT. -/
def frameInit (x : BitVec 4096) : BitVec 64 :=
  BitVec.ofNat 64 (((List.range 64).map (fun n => b2n (cellFfInit (frameCell x n)) * 2 ^ n)).sum)

/-- A frame's flip-flops after one FCLK cycle, from the inputs of its cells and the reset lines of its blocks. -/
def frameNext (x : BitVec 4096) (q : BitVec 64) (ins : BitVec 256) (resets : BitVec 4) : BitVec 64 :=
  BitVec.ofNat 64 (((List.range 64).map (fun n =>
    b2n (cellNext (frameCell x n) (q.getLsbD n) (ins.extractLsb' (4 * n) 4) (resets.getLsbD (n / 16))) * 2 ^ n)).sum)

/-! ### The fabric's flip-flops (R359) -/

/-- The flip-flops of a frame: an unlisted one holds zeros. Hard-block frames have none. -/
def State.flopsOf (s : State) (d : Nat) : BitVec 64 := Tbl.get 0 s.flops d

/-- Every flip-flop of the frames that pass holds its FF_INIT (R359). -/
def State.initFlops (s : State) (which : Nat → Bool) : State :=
  { s with flops := (s.flops.filter (fun f => !which f.1)) ++
      ((s.fabric.filter (fun f => decide (f.1 < 7424) && which f.1 && frameInit f.2 != 0)).map (fun f => (f.1, frameInit f.2))) }

/-- Whether a frame lies in a region. -/
def inArea (r d : Nat) : Bool := decide (d < 7168) && d / 896 = r

/-- Every frame of a region cleared (R383). -/
def State.clearFrames (s : State) (r : Nat) : State := { s with fabric := s.fabric.filter (fun f => !inArea r f.1) }

/-- Whether the flip-flops of a frame are clocked: resets are released, and its region is not held in reset (R359, R400, R403). -/
def State.clocked (s : State) (d : Nat) : Bool :=
  (s.start.st = 7 || (s.start.st = 6 && decide (3 ≤ s.start.stage))) && decide (d < 7424) &&
    !(decide (d < 7168) && Tbl.get false s.reload.held (d / 896))

/-- The fabric's flip-flops after the FCLK cycles of one MCLK cycle. What a routing source is connected to the manual does not
give, so the inputs of the cells and the reset lines of the blocks are free values (log 50); a frame of zeros holds zeros. -/
def State.clockFabric (s : State) : State :=
  let fs := s.fabric.filter (fun f => s.clocked f.1)
  { s with flops := (s.flops.filter (fun f => !s.clocked f.1)) ++ ((List.range fs.length).zip fs).map (fun p =>
             let w := Config.freeFrame (s.free + p.1)
             (p.2.1, frameNext p.2.2 (s.flopsOf p.2.1) (w.extractLsb' 0 256) (w.extractLsb' 256 4)))
           free := s.free + fs.length }

end Sys2Proof.Machine
end

