-- ==== Sys2Proof/Machine/ShapeCheck.lean ====
section
/-! DEFINITION. How a shape is checked, reported, held pending and applied (01). -/
namespace Sys2Proof.Machine

/-! ### Records and places (R24, R29, R536) -/

/-- A shape record: field, index, reserved bytes, value. -/
structure ShapeRec where
  fld : Nat
  idx : Nat
  rsv : Nat
  val : Nat
deriving DecidableEq, Repr

/-- Read a record of eight bytes (R24). -/
def ShapeRec.of (w : BitVec 64) : ShapeRec :=
  let x := w.toNat
  { fld := bitsN x 0 8, idx := bitsN x 8 8, rsv := bitsN x 16 16, val := bitsN x 32 32 }

/-- The records of a section, up to the one that ends it. -/
def sectionRecs : List (BitVec 64) → List ShapeRec
  | [] => []
  | w :: r => if (ShapeRec.of w).fld = 0xFF then [] else ShapeRec.of w :: sectionRecs r

/-- How many indexes a field has (Table 01-2). -/
def fieldSpan (f : Nat) : Nat :=
  match f with
  | 0x02 | 0x03 => 8
  | 0x05 => 32
  | 0x06 | 0x07 | 0x0A | 0x0B | 0x0C | 0x0D => 8
  | 0x01 | 0x04 | 0x08 | 0x09 | 0x0E | 0x0F => 1
  | _ => 0

/-- The value of a field and index in a shape. -/
def Shape.value (sh : Shape) (f i : Nat) : Nat :=
  match f with
  | 0x01 => sh.regionEn
  | 0x02 => Tbl.get 15 sh.clusterEn i
  | 0x03 => Tbl.get 2 sh.aclkDiv i
  | 0x04 => sh.partCount
  | 0x05 => Tbl.get 0 sh.partOf i
  | 0x06 => Tbl.get 0 sh.fillPolicy i
  | 0x07 => Tbl.get 0 sh.hostQueues i
  | 0x08 => sh.winBase
  | 0x09 => sh.winSize
  | 0x0A => Tbl.get 0 sh.shelfRoom i
  | 0x0B => Tbl.get 0 sh.larderRoom i
  | 0x0C => Tbl.get 0 sh.roomBase i
  | 0x0D => Tbl.get 0 sh.roomSize i
  | 0x0E => sh.bwRead
  | _ => sh.bwWrite

/-- Set a field and index. -/
def Shape.put (sh : Shape) (f i v : Nat) : Shape :=
  match f with
  | 0x01 => { sh with regionEn := v }
  | 0x02 => { sh with clusterEn := Tbl.set i v sh.clusterEn }
  | 0x03 => { sh with aclkDiv := Tbl.set i v sh.aclkDiv }
  | 0x04 => { sh with partCount := v }
  | 0x05 => { sh with partOf := Tbl.set i v sh.partOf }
  | 0x06 => { sh with fillPolicy := Tbl.set i v sh.fillPolicy }
  | 0x07 => { sh with hostQueues := Tbl.set i v sh.hostQueues }
  | 0x08 => { sh with winBase := v }
  | 0x09 => { sh with winSize := v }
  | 0x0A => { sh with shelfRoom := Tbl.set i v sh.shelfRoom }
  | 0x0B => { sh with larderRoom := Tbl.set i v sh.larderRoom }
  | 0x0C => { sh with roomBase := Tbl.set i v sh.roomBase }
  | 0x0D => { sh with roomSize := Tbl.set i v sh.roomSize }
  | 0x0E => { sh with bwRead := v }
  | _ => { sh with bwWrite := v }

/-- A report entry with the place it takes: field place, index place, rank (0 decided, 1 discarded), order (R536). -/
structure Placed where
  key : Nat
  ent : RepEntry
deriving DecidableEq, Repr

/-- A check in progress: the records kept, the shape so far, the entries so far, decided entries counted. -/
structure Checking where
  kept : List ShapeRec
  sh : Shape
  out : List Placed
  n : Nat
deriving DecidableEq, Repr

/-- Place of a field and index: a cellar room's size stands with its base (R536). -/
def placeOf (f i : Nat) : Nat := (if f = 0x0D && i < 8 then 0x0C else f) * 256 + i

/-- Add an entry of an action on a field. -/
def Checking.act (k : Checking) (f i action cause : Nat) : Checking :=
  { k with out := { key := placeOf f i * 2 ^ 40 + k.n, ent := { field := f, index := i % 32, action := action, cause := cause, value := 0 } } :: k.out
           n := k.n + 1 }

/-- INDEX of a discarded record: 0 for a die field, else the record's (Table 01-4). Of an index byte above 31 the field holds the
five low bits: the manual is silent (DESIGN CHOICE, log 52). -/
def ShapeRec.index (r : ShapeRec) : Nat := if fieldSpan r.fld = 1 then 0 else r.idx % 32

/-- Add an entry of a discarded record; `pos` is its place in the stream. -/
def Checking.drop (k : Checking) (r : ShapeRec) (cause pos : Nat) : Checking :=
  { k with out := { key := placeOf r.fld r.idx * 2 ^ 40 + 2 ^ 36 + r.fld * 2 ^ 24 + pos,
                    ent := { field := r.fld, index := r.index, action := 4, cause := cause, value := r.val } } :: k.out }

/-- Whether a record is malformed (Table 01-3). -/
def ShapeRec.bad (r : ShapeRec) : Bool := fieldSpan r.fld ≤ r.idx || r.rsv ≠ 0

/-- Keep the first well-formed record of each field and index; the others are discarded. -/
def Checking.sort (k : Checking) : List ShapeRec → Nat → Checking
  | [], _ => k
  | r :: rest, pos =>
    let k := if r.bad then k.drop r 9 pos
      else if k.kept.any (fun q => q.fld = r.fld && q.idx = r.idx) then k.drop r 8 pos
      else { k with kept := k.kept ++ [{ r with rsv := pos }] }
    Checking.sort k rest (pos + 1)

/-- The kept record of a field and index; its `rsv` is its place in the stream. -/
def Checking.find (k : Checking) (f i : Nat) : Option ShapeRec := k.kept.find? (fun q => q.fld = f && q.idx = i)

/-- Set a field. -/
def Checking.set (k : Checking) (f i v : Nat) : Checking := { k with sh := k.sh.put f i v }

/-- Check one field: its range alone lo to hi, its bounds from lower fields dlo to dhi, its default, and the dependent action
(R30, Table 01-3). -/
def Checking.field (k : Checking) (f i lo hi dlo dhi dflt action cause : Nat) : Checking :=
  let dlo := max lo dlo
  let dhi := min hi dhi
  match k.find f i with
  | none =>
    let k := k.act f i 2 0
    if dflt < dlo || dhi < dflt then (k.act f i action cause).set f i (clampTo dlo dhi dflt) else k.set f i dflt
  | some r =>
    if r.val < lo || hi < r.val then (k.act f i 1 1).set f i (clampTo dlo dhi r.val)
    else if r.val < dlo || dhi < r.val then (k.act f i action cause).set f i (clampTo dlo dhi r.val)
    else k.set f i r.val

/-- A field whose range has no bound from a lower one. -/
def Checking.plain (k : Checking) (f i lo hi dflt : Nat) : Checking := k.field f i lo hi lo hi dflt 1 2

/-- A field and index that does not apply: its record is discarded (R32, Table 01-3). -/
def Checking.absent (k : Checking) (f i cause : Nat) : Checking :=
  match k.find f i with
  | none => k
  | some r => k.drop r cause r.rsv

/-- Fold a check over indexes. -/
def Checking.over (k : Checking) (l : List Nat) (f : Checking → Nat → Checking) : Checking := l.foldl f k

/-! ### The fields in order (R29 to R31) -/

/-- Cause of a region that is not present: FUSED where it is built, else ABSENT. -/
def State.gone (s : State) (r : Nat) : Nat := if r < s.regions then 3 else 4

/-- The mask of present regions. -/
def State.presentMask (s : State) : Nat := (List.range 8).foldl (fun m r => if s.present r then m + 2 ^ r else m) 0

/-- REGION_EN (Table 01-3). Bits 8 to 31 of the value name no region: they count as unbuilt ones, which the manual does not say
(DESIGN CHOICE, log 52). -/
def State.checkRegions (s : State) (k : Checking) : Checking :=
  match k.find 1 0 with
  | none => (k.act 1 0 2 0).set 1 0 s.presentMask
  | some r =>
    let cleared := (List.range 32).filter (fun i => bitN r.val i && !s.present i)
    let v := Nat.land r.val s.presentMask
    if cleared = [] then k.set 1 0 v
    else (k.act 1 0 1 (if cleared.any (fun i => i < s.regions) then 3 else 4)).set 1 0 v

/-- The pieces of a range that a list of granted ranges leaves, ascending. -/
def freePieces (taken : List (Nat × Nat)) (lo hi : Nat) : List (Nat × Nat) :=
  let cuts := lo :: (taken.map Prod.snd).filter (fun x => lo < x && x < hi)
  cuts.filterMap (fun a =>
    if taken.any (fun t => t.1 ≤ a && a < t.2) then none
    else
      let b := ((taken.map Prod.fst).filter (fun x => a < x)).foldl min hi
      if a < b then some (a, b) else none)

/-- The longest piece, the lower of two of one length (Table 01-3). -/
def longest (ps : List (Nat × Nat)) : Option (Nat × Nat) :=
  ps.foldl (fun b p =>
    match b with
    | none => some p
    | some q => if q.2 - q.1 < p.2 - p.1 || (q.2 - q.1 = p.2 - p.1 && p.1 < q.1) then some p else b) none

/-- One partition's cellar store room (R31). Where OVERLAP leaves nothing the size is 0; the base, of which the manual says nothing,
stays as the earlier steps decided it (DESIGN CHOICE, log 52). -/
def Checking.room (k : Checking) (p : Nat) (taken : List (Nat × Nat)) : Checking :=
  let win := k.sh.winSize
  let rb := k.find 0x0C p
  let rs := k.find 0x0D p
  let k := if rb.isNone then k.act 0x0C p 2 0 else k
  let k := if rs.isNone then k.act 0x0D p 2 0 else k
  let b := (rb.map ShapeRec.val).getD 0
  let z := (rs.map ShapeRec.val).getD 0
  let (k, b') := if win < b then (k.act 0x0C p 1 (if 2 ^ 28 ≤ b then 1 else 2), win) else (k, b)
  let (k, z') := if win < b' + z then (k.act 0x0D p 1 (if 2 ^ 28 ≤ z then 1 else 2), win - b') else (k, z)
  let meets := taken.any (fun t => 0 < z' && t.1 < b' + z' && b' < t.2)
  if meets then
    let k := (k.act 0x0C p 3 6).act 0x0D p 3 6
    match longest (freePieces taken b' (b' + z')) with
    | none => (k.set 0x0C p b').set 0x0D p 0
    | some q => (k.set 0x0C p q.1).set 0x0D p (q.2 - q.1)
  else (k.set 0x0C p b').set 0x0D p z'

/-- The cellar store rooms of partitions 0 to n − 1, as granted. -/
def Shape.rooms (sh : Shape) (present : List Nat) (n : Nat) : List (Nat × Nat) :=
  (present.filter (fun q => q < n && 0 < Tbl.get 0 sh.roomSize q)).map (fun q =>
    (Tbl.get 0 sh.roomBase q, Tbl.get 0 sh.roomBase q + Tbl.get 0 sh.roomSize q))

/-- Check every field in the order of R29. -/
def State.checkFields (s : State) (k : Checking) : Checking :=
  let eight := List.range 8
  let k := s.checkRegions k
  let k := k.over eight (fun k r => if s.present r then k.plain 2 r 0 15 15 else k.absent 2 r (s.gone r))
  let k := k.over eight (fun k r => if s.present r then k.plain 3 r 2 4 2 else k.absent 3 r (s.gone r))
  let k := k.plain 4 0 1 8 1
  let k := k.over (List.range 32) (fun k c =>
    if s.present (c / 4) then k.field 5 c 0 7 0 (k.sh.partCount - 1) 0 1 2 else k.absent 5 c (s.gone (c / 4)))
  let here := eight.filter (fun p => s.partIn k.sh p)
  let has (p : Nat) : Bool := here.contains p
  let k := k.over eight (fun k p => if has p then k.plain 6 p 0 1 0 else k.absent 6 p 7)
  let k := k.over eight (fun k p =>
    if has p then
      let lower := (here.filter (fun q => q < p)).foldl (fun n q => n + Tbl.get 0 k.sh.hostQueues q) 0
      let higher := (here.filter (fun q => p < q)).length
      k.field 7 p 1 1024 1 (1024 - lower - higher) (1024 / here.length) 3 5
    else k.absent 7 p 7)
  let k := k.plain 8 0 0 (2 ^ 28 - 1) 0
  let k := k.field 9 0 0 (2 ^ 28 - 1) 0 (2 ^ 28 - k.sh.winBase) 0 1 2
  let k := k.over eight (fun k p =>
    if has p then k.plain 0x0A p 0 (s.shelfSize / 32768 - 2) (s.shelfSize / 65536) else k.absent 0x0A p 7)
  let k := k.over eight (fun k p =>
    if has p then k.plain 0x0B p 0 (s.larderSize / 262144 - 2) (s.larderSize / 524288) else k.absent 0x0B p 7)
  let k := k.over eight (fun k p =>
    if has p then k.room p (k.sh.rooms here p) else (k.absent 0x0C p 7).absent 0x0D p 7)
  let k := k.plain 0x0E 0 5 90 60
  k.field 0x0F 0 5 90 5 (95 - k.sh.bwRead) 30 1 2

/-- Insert an entry by its place. -/
def insertPlaced (a : Placed) : List Placed → List Placed
  | [] => [a]
  | b :: r => if a.key < b.key then a :: b :: r else b :: insertPlaced a r

/-- The entries in their order, each with the value finally applied or, for a discarded record, its own (R35, R536). -/
def Checking.entries (k : Checking) : List RepEntry :=
  (k.out.foldl (fun l p => insertPlaced p l) []).map (fun p =>
    if p.ent.action = 4 then p.ent else { p.ent with value := k.sh.value p.ent.field p.ent.index })

/-- Check a shape: the shape to be used and the report entries (R29 to R36). -/
def State.checkShape (s : State) (recs : List (BitVec 64)) : Shape × List RepEntry :=
  let k0 : Checking := { kept := [], sh := Shape.fresh, out := [], n := 0 }
  let k := s.checkFields (k0.sort (sectionRecs recs) 0)
  (k.sh, k.entries)

/-- The report of a check (R35 to R37). -/
def reportOf (es : List RepEntry) (st : Nat) : ShapeReport :=
  let count (a : Nat) : Nat := satTo 15 (es.filter (fun e => e.action = a)).length
  { entries := es.take 256, overflow := decide (256 < es.length), clamped := count 1, defaulted := count 2, truncated := count 3,
    ignored := es.any (fun e => e.action = 4), state := st }

/-! ### Power domains as requests (R477 to R482) -/

/-- A power domain. -/
def State.domain (s : State) (d : Nat) : Domain := Tbl.get Domain.fresh s.power.domains d

/-- Write a power domain. -/
def State.setDomain (s : State) (d : Nat) (x : Domain) : State :=
  { s with power := { s.power with domains := Tbl.set d x s.power.domains } }

/-- The cluster of a quad, spare or shell domain, as region × 4 + cluster. -/
def domainCluster (d : Nat) : Nat := if d < 128 then d / 4 else if d < 160 then d - 128 else d - 160

/-- The domain that a domain rests on (R478). -/
def restsOn (d : Nat) : Option Nat :=
  if d < 160 then some (160 + domainCluster d) else if d < 192 then some (192 + domainCluster d / 4) else none

/-- Whether a domain of Table 17-2 is in the build (R476). -/
def State.domainBuilt (s : State) (d : Nat) : Bool :=
  if d < 192 then decide (domainCluster d / 4 < s.regions) && (128 ≤ d || decide (d % 4 < s.tpc / 4))
  else if d < 200 then decide (d - 192 < s.regions) else d = 200

/-- MCLK cycles of a domain's RISING sequence (Table 17-3). -/
def risingTime (d : Nat) : Nat := if d < 160 then 192 else if d < 192 then 576 else 64

/-- Whether a domain stays ON for a run-time substitution: the quad that holds the isolated failed tile, the spare in its place,
and the shell on which they rest (R141, R142, R479). -/
def State.keepsOn (s : State) (d : Nat) : Bool :=
  let x := (s.cluster (domainCluster d)).spare
  decide (d < 192) && x.active && !x.fused && (128 ≤ d || d % 4 = x.target / 4)

/-- Domains in their switch ramp (R478). -/
def State.ramping (s : State) : Nat :=
  (s.power.domains.filter (fun p => p.2.st = 1 && decide (s.now < p.2.at_ + 32))).length

/-- One domain goes on as far as it may: a rise that is due begins when what it rests on is ON and a ramp is free, a fall when
what rests on it is OFF and no substitution needs it (R142, R478, R481). -/
def State.advanceDomain (s : State) (d : Nat) : State :=
  let x := s.domain d
  match x.want with
  | none => s
  | some up =>
    if up then
      if x.st = 2 then s.setDomain d { x with want := none }
      else if x.st = 0 then
        let based := match restsOn d with
          | none => true
          | some b => s.domainSt b = 2
        if based && decide (s.ramping < 4) then s.setDomain d { x with st := 1, want := none, at_ := s.now } else s
      else s
    else
      if x.st = 0 then s.setDomain d { x with want := none }
      else if x.st = 2 then
        if s.keepsOn d then s
        else if 160 ≤ d && (s.clusterDomains (d - 160)).any (fun e => e ≠ d && s.domainSt e ≠ 0) then s
        else s.setDomain d { x with st := 3, want := none, at_ := s.now }
      else s

/-- Every domain with a request goes on, in ascending identifier order (R478). -/
def State.advanceDomains (s : State) : State :=
  ((s.power.domains.filter (fun p => p.2.want.isSome)).map Prod.fst).foldl State.advanceDomain s

/-- Ask for a state of a domain: the last request of a running sequence counts (R481). -/
def State.askDomain (s : State) (d : Nat) (up : Bool) : State :=
  let x := s.domain d
  s.setDomain d { x with want := if (x.st = 2 && up) || (x.st = 0 && !up) then none else some up }

/-- Raise or lower domains, and let them go on. -/
def State.askDomains (s : State) (ds : List Nat) (up : Bool) : State := (ds.foldl (fun s d => s.askDomain d up) s).advanceDomains

/-! ### Applying a shape (R38 to R42) -/

/-- Whether a shape changes the store room of a tier of a partition: its size, its place among the offsets, or the window that the
cellar's lies in (R253). -/
def State.roomChanges (s : State) (sh : Shape) (part tier : Nat) : Bool :=
  let same (f : Nat) : Bool := s.shape.value f part = sh.value f part
  match tier with
  | 0 => !same 0x0A
  | 1 => !same 0x0B
  | _ => !(same 0x0C && same 0x0D) || (s.shape.winBase != sh.winBase && s.shape.value 0x0D part != 0)

/-- Whether a shape moves the cellar store room of a partition: its first address changes (R256; log 33). -/
def State.roomMoves (s : State) (sh : Shape) (part : Nat) : Bool :=
  s.shape.winBase + s.shape.value 0x0C part != sh.winBase + sh.value 0x0C part

/-- Whether a shape changes a cluster's enable, partition, store rooms or divider (R39). -/
def State.changes (s : State) (sh : Shape) (c : Nat) : Bool :=
  let p := s.shape.part c
  s.activeIn s.shape c != s.activeIn sh c || p ≠ sh.part c || [0, 1, 2].any (fun t => s.roomChanges sh p t) ||
    s.shape.value 3 (c / 4) ≠ sh.value 3 (c / 4)

/-- Whether a cluster stands idle at a full stop, with no run, reservation or dispatched follow-on of its own (R38, R39). -/
def State.atRest (s : State) (c : Nat) : Bool :=
  let x := s.cluster c
  x.task.isNone && x.phase = .idle && x.resv.isNone && x.stageFor.isNone

/-- Whether the shape in hand may be applied now (R39, R40, R407, R480): every cluster that it changes is idle, its domains ON where
it is active, its region not being reloaded. -/
def State.mayApply (s : State) (sh : Shape) : Bool :=
  (List.range 32).all (fun c =>
    !s.changes sh c || (s.atRest c && !(s.active c && s.present (c / 4) && !s.powered c) &&
      !((s.reload.st = 1 || s.reload.st = 2 || s.reload.st = 3) && s.reload.target = c / 4))) &&
  s.tasks.all (fun t => t.2.die ≠ s.die || decide (t.2.ncluster ≤
    ((List.range 16).filter (fun d => d ≠ s.die && !s.lostDies.contains d)).foldl (fun n d => n + Tbl.get 0 s.peers (8 * d + t.2.part)) 0 +
    ((List.range 32).filter (fun c => s.activeIn sh c && !bitN s.faults.out.toNat (c / 4) && sh.part c = t.2.part)).length))

/-- Whether an object lies within its store room under the shape in force (R42). -/
def State.fits (s : State) (o : Obj) : Bool :=
  s.partPresent o.part && (o.tier = 2 || (s.active o.home && s.shape.part o.home = o.part)) &&
    (s.rangesOf o).all (fun r => decide ((s.room o.part o.tier).1 ≤ r.1) && decide (r.1 + r.2 ≤ (s.room o.part o.tier).2))

/-- Whether an object is removed by a shape that replaces another: it no longer fits, or its store room has moved (R42, R256). -/
def State.unfit (s : State) (old : State) (o : Obj) : Bool :=
  o.st = .live && (!s.fits o || (o.tier = 2 && old.roomMoves s.shape o.part))

/-- A retired index is free again where a shape changes its store room (R256, R305). -/
def Obj.renew (o : Obj) (changed : Bool) : Obj := if o.st = .retired && changed then { o with st := .free } else o

/-- A shape that activates a cluster adopts its domains as they stand: no request holds them any more (R482). -/
def State.adopt (s : State) (c : Nat) : State :=
  s.each (s.clusterDomains c) (fun s d => s.setDomain d { s.domain d with held := false })

/-- Put a shape in force: buckets full, credits zero (R252, R278), domains to their states (R479), retired indexes of changed store
rooms free (R305); objects that no longer fit, or whose room has moved, are removed as a loss of capacity (R42, R256). -/
def State.useShape (old : State) (sh : Shape) : State :=
  let before := (List.range 32).filter old.active
  let s := { old with shape := sh, pendShape := none, report := { old.report with state := 1 } }
  let s := { s with queues := Tbl.mapVals (fun _ y => { y with bucketRd := y.depthRd * 1024, bucketWr := y.depthWr * 1024 }) s.queues }
  let s := { s with cellar := Tbl.mapVals (fun _ (c : CellarPort) => { c with cred0 := 0, cred1 := 0, cred2 := 0 }) s.cellar }
  let s := { s with objs := Tbl.mapVals (fun _ o => o.renew (old.roomChanges sh o.part o.tier)) s.objs }
  let now := (List.range 32).filter s.active
  let s := (now.filter (fun c => !before.contains c)).foldl (fun s c => (s.adopt c).askDomains (s.clusterDomains c) true) s
  let s := (before.filter (fun c => !now.contains c)).foldl (fun s c =>
    s.askDomains ((s.clusterDomains c).filter (fun d => !(s.domain d).held)) false) s
  let unfit : List Nat := (s.objs.filter (fun p => s.unfit old p.2)).map Prod.fst
  match unfit with
  | [] => s
  | _ => (s.logFault (eventEntry 14 5 0 0)).removeObjs unfit []

/-- SHAPE_APPLY: a pending shape takes effect for the whole die at once (R39, R40). -/
def execShapeApply (s : State) : Out :=
  match s.pendShape with
  | none => .next s
  | some sh => .next (if s.mayApply sh then s.useShape sh else s)

/-- Hold a checked shape pending; one that was pending is discarded (R38, R41). -/
def State.holdShape (s : State) (recs : List (BitVec 64)) : State :=
  let (sh, es) := s.checkShape recs
  { s with pendShape := some sh, report := reportOf es 2 }

end Sys2Proof.Machine
end

