-- ==== Sys2Proof/Machine/BitStream.lean ====
section
/-! DEFINITION. The chain image, its segments and the record stream: layout and checks (13). -/
namespace Sys2Proof.Machine

/-! ### Frames (R361, R373, R376) -/

/-- Dense index of a frame address; none where it is illegal (R373). -/
def State.dense (s : State) (a : Nat) : Option Nat :=
  let area := bitsN a 20 4
  let part := bitsN a 16 4
  let i := bitsN a 0 16
  if 2 ^ 24 ≤ a then none
  else if area < 8 then
    if s.regions ≤ area then none
    else if part = 0 then (if i < 256 then some (896 * area + i) else none)
    else if part ≤ 4 then (if i < s.extFrames then some (896 * area + 256 + 128 * (part - 1) + i) else none)
    else if part ≤ 8 then (if i < 32 then some (896 * area + 768 + 32 * (part - 5) + i) else none)
    else none
  else if area = 8 && part = 0 then (if i < 256 then some (7168 + i) else none)
  else if area = 9 && part = 0 then (if i < 16 then some (7424 + i) else none)
  else none

/-- Frame address of a dense index (Table 13-9). -/
def frameAddr (d : Nat) : Nat :=
  if d < 7168 then
    let r := d / 896
    let o := d % 896
    let rest := if o < 256 then o else if o < 768 then (1 + (o - 256) / 128) * 65536 + (o - 256) % 128
      else (5 + (o - 768) / 32) * 65536 + (o - 768) % 32
    r * 2 ^ 20 + rest
  else if d < 7424 then 8 * 2 ^ 20 + (d - 7168) else 9 * 2 ^ 20 + (d - 7424)

/-- Region of a dense index; none for die shells and hard-block settings. -/
def frameRegion (d : Nat) : Option Nat := if d < 7168 then some (d / 896) else none

/-- Whether a dense index lies in a region fabric or an extension field. -/
def mapped (d : Nat) : Bool := d < 7168 && d % 896 < 768

/-- Cluster, as region × 4 + cluster, of an extension-field or sequencer-shell frame. -/
def frameCluster (d : Nat) : Option Nat :=
  if 7168 ≤ d || d % 896 < 256 then none
  else if d % 896 < 768 then some (d / 896 * 4 + (d % 896 - 256) / 128) else some (d / 896 * 4 + (d % 896 - 768) / 32)

/-- Whether the build has a frame. -/
def State.hasFrame (s : State) (d : Nat) : Bool :=
  if d < 7168 then decide (d / 896 < s.regions) && (!(256 ≤ d % 896 && d % 896 < 768) || decide ((d % 896 - 256) % 128 < s.extFrames))
  else decide (d < 7440)

/-- Whether a frame is loaded: it is in the build, and its region is present (R377). -/
def State.loads (s : State) (d : Nat) : Bool :=
  s.hasFrame d && (match frameRegion d with
    | none => true
    | some r => s.present r)

/-- The 512 bytes of a frame. -/
def frameBytes (x : BitVec 4096) : List Byte := leBytes 512 x.toNat

/-- CRC-32C of a frame (R374). -/
def frameCrc (x : BitVec 4096) : Word := crc32c (frameBytes x)

/-- The shadow of a frame. -/
def State.shadowOf (s : State) (d : Nat) : BitVec 4096 := Tbl.get 0 s.attic.shadow d

/-- Whether a shadow frame matches its entry of the shadow CRC table (R414). -/
def State.shadowOk (s : State) (d : Nat) : Bool := frameCrc (s.shadowOf d) = Tbl.get (frameCrc 0) s.attic.shadowCrc d

/-! ### The chain image (R370, R371) -/

/-- A field of a chain header. -/
def imgField (h : BitVec 2048) (lo w : Nat) : Nat := bitsN h.toNat lo w

/-- The bytes of a segment. -/
def segBytes (g : Seg) : List Byte := leBytes 128 g.hdr.toNat ++ g.body

/-- The bytes of a chain image. -/
def imageBytes (hdr : BitVec 2048) (segs : List Seg) : List Byte := leBytes 256 hdr.toNat ++ segs.flatMap segBytes

/-- The chain image of an attic. -/
def Attic.bytes (a : Attic) : List Byte := (imageBytes a.hdr a.segs).take a.len

/-- NSEG. -/
def Attic.nseg (a : Attic) : Nat := imgField a.hdr 40 8

/-- Code of step 1 of Table 13-11, 0 where it passes (R368, R380). -/
def Attic.fault (a : Attic) : Nat :=
  if !a.valid || crc32c a.bytes ≠ a.crc then 1
  else if imgField a.hdr 0 32 ≠ 0x5A434831 || imgField a.hdr 32 8 ≠ 1 || a.nseg < 1 || 16 < a.nseg then 2
  else 0

/-- OFFSET and LENGTH of a segment of the image. -/
def Attic.place (a : Attic) (i : Nat) : Nat × Nat := (imgField a.hdr (128 + 64 * i) 32, imgField a.hdr (160 + 64 * i) 32)

/-- A field of a segment header (Table 13-8). -/
def segField (h : BitVec 1024) (lo w : Nat) : Nat := bitsN h.toNat lo w

/-- LENGTH of a segment header. -/
def segLen (g : Seg) : Nat := segField g.hdr 160 32

/-- A segment of the image as its own die reads it: header, and LENGTH bytes as far as the image goes. -/
def Attic.seg (a : Attic) (i : Nat) : Seg :=
  let b := a.bytes.drop (a.place i).1
  let h : BitVec 1024 := BitVec.ofNat 1024 (leNat (b.take 128))
  { hdr := h, body := (b.drop 128).take (segField h 160 32) }

/-- Whether a segment lies inside IMAGE_LEN. -/
def Attic.inside (a : Attic) (i : Nat) : Bool :=
  (a.place i).1 % 8 = 0 && decide ((a.place i).1 + 128 + segLen (a.seg i) ≤ a.len)

/-- A segment as it is sent along the chain: bytes OFFSET to OFFSET + LENGTH − 1 (R392). -/
def Attic.sent (a : Attic) (i : Nat) : Seg :=
  let b := (a.bytes.drop (a.place i).1).take (a.place i).2
  { hdr := BitVec.ofNat 1024 (leNat (b.take 128)), body := b.drop 128 }

/-! ### The header checks (Table 13-11, steps 2 to 9a) -/

/-- Whether every reserved bit of a header is 0. -/
def reservedZero (h : BitVec 1024) : Bool :=
  segField h 59 5 = 0 && segField h 76 4 = 0 && segField h 92 4 = 0 && segField h 101 3 = 0 && segField h 108 20 = 0 &&
    segField h 416 608 = 0

/-- Code of the first of steps 2 to 8 that fails, 0 where all pass. A segment offered at run time must have KIND 1 (R384). -/
def State.headerFault (s : State) (g : Seg) (runtime inside : Bool) : Nat :=
  let h := g.hdr
  let kind := segField h 40 8
  if segField h 0 32 ≠ 0x5A534731 || segField h 32 8 ≠ 1 || 1 < kind || (runtime && kind = 0) || 1 < segField h 96 2 ||
      segField h 104 4 = 0 || 8 < segField h 104 4 || !reservedZero h then 2
  else if segField h 48 8 ≠ bitsN s.build.toNat 24 8 then 3
  else if segField h 64 12 ≠ bitsN s.build.toNat 0 12 then 4
  else if !bitN h.toNat (56 + bitsN s.grade.toNat 0 2) then 5
  else if bitsN s.build.toNat 16 8 < segField h 80 8 then 6
  else if segField h 88 4 ≠ s.start.pos then 7
  else if segLen g % 8 ≠ 0 || 2 ^ 22 < segLen g || !inside then 8
  else 0

/-! ### The record stream (R374 to R376) -/

/-- A record stream as far as it is read: frames by dense index with data and the CRC they carry, maps, shape, END. -/
structure Stream where
  frames : Tbl (BitVec 4096 × Word)
  maps : Tbl (BitVec 128)
  shape : Option (List (BitVec 64))
  fin : Option (Nat × Word)
  /-- the types of the records read -/
  types : List Nat := []
deriving DecidableEq, Repr

/-- Add a frame; a frame named twice or an illegal address makes the stream malformed (R373, R375). -/
def State.addFrame (s : State) (x : Option Stream) (a : Nat) (d : BitVec 4096) (crc : Word) : Option Stream :=
  match x, s.dense a with
  | some x, some i => if (Tbl.find i x.frames).isSome then none else some { x with frames := Tbl.set i (d, crc) x.frames }
  | _, _ => none

/-- Add a map. -/
def State.addMap (s : State) (x : Option Stream) (a : Nat) (m : BitVec 128) : Option Stream :=
  match x, s.dense a with
  | some x, some i => some { x with maps := Tbl.set i m x.maps }
  | _, _ => none

/-- Data and CRC of a frame body. -/
def frameBody (b : List Byte) : BitVec 4096 × Word :=
  (BitVec.ofNat 4096 (leNat (b.take 512)), BitVec.ofNat 32 (leNat ((b.drop 512).take 4)))

/-- Unpadded length of a record of a type and count; 0 where the type or count is illegal (Table 13-10). -/
def recordLen (typ count : Nat) : Nat :=
  match typ with
  | 0x01 => if count = 0 then 524 else 0
  | 0x02 => if 2 ≤ count && count ≤ 4096 then 524 + 4 * count else 0
  | 0x03 => if 1 ≤ count && count ≤ 65536 then 8 else 0
  | 0x10 => if 1 ≤ count && count ≤ 4096 then 8 + 8 * count else 0
  | 0x11 => 8 + 20 * count
  | 0x1F => if count = 0 then 16 else 0
  | _ => 0

/-- One record's body added to a stream (Table 13-10). -/
def State.addRecord (s : State) (x : Stream) (typ count addr : Nat) (body : List Byte) : Option Stream :=
  match typ with
  | 0x01 => let d := frameBody body; s.addFrame (some x) addr d.1 d.2
  | 0x02 =>
    let d := frameBody body
    if addr ≠ 0 then none
    else (chunks 4 count (body.drop 516)).foldl (fun x a => s.addFrame x (leNat a) d.1 d.2) (some x)
  | 0x03 =>
    if 65536 < addr % 65536 + count then none
    else (List.range count).foldl (fun x i => s.addFrame x (addr + i) 0 (frameCrc 0)) (some x)
  | 0x10 =>
    let recs := (chunks 8 count body).map (fun b => BitVec.ofNat 64 (leNat b))
    if addr ≠ 0 || x.shape.isSome || ((recs.getLast?).map (fun w => bitsN w.toNat 0 8)) ≠ some 0xFF then none
    else some { x with shape := some recs }
  | 0x11 =>
    if addr ≠ 0 then none
    else (chunks 20 count body).foldl (fun x b => s.addMap x (leNat (b.take 4)) (BitVec.ofNat 128 (leNat (b.drop 4)))) (some x)
  | _ =>
    if addr ≠ 0 then none
    else some { x with fin := some (leNat (body.take 4), BitVec.ofNat 32 (leNat ((body.drop 4).take 4))) }

/-- Read records until END, whose padding is zero; none where the stream is malformed (R374, R375). -/
def State.readRecords (s : State) : Nat → Stream → List Byte → Option Stream
  | 0, _, _ => none
  | f + 1, x, b =>
    if x.fin.isSome then (if b.all (fun y => y = 0) then some x else none)
    else
      let h := leNat (b.take 8)
      let typ := bitsN h 0 8
      let count := bitsN h 8 24
      let n := recordLen typ count
      let padded := (n + 7) / 8 * 8
      if n = 0 || b.length < padded || bitsN h 56 8 ≠ 0 || !((b.take padded).drop n).all (fun y => y = 0) then none
      else
        match s.addRecord x typ count (bitsN h 32 24) ((b.take n).drop 8) with
        | none => none
        | some x => State.readRecords s f { x with types := typ :: x.types } (b.drop padded)

/-- The key that a header names, if it is present (R372). -/
def State.keyOf (s : State) (h : BitVec 1024) : Option (BitVec 256) :=
  if segField h 96 2 = 0 then s.sec.fuseKey else Tbl.find (segField h 98 3) s.sec.slots

/-- A segment decrypted under a key: the vector of bytes 24 to 35, the tag of bytes 36 to 51, the header with those read as zero as
additional data (R372). Byte 0 of a key is its bits [7:0]. -/
def decryptSeg (key : BitVec 256) (g : Seg) : Gcm :=
  let h := leBytes 128 g.hdr.toNat
  gcmOpen (beNat (leBytes 32 key.toNat)) (beNat ((h.drop 24).take 12)) (h.take 36 ++ List.replicate 16 0 ++ h.drop 52) (g.body.take (segLen g))
    (beNat ((h.drop 36).take 16))

/-- What checks 9a to 9f give: a code, or the stream. -/
inductive Checked where
  | failed (code : Nat)
  | passed (x : Stream)
deriving DecidableEq, Repr

/-- What the records of a stream said beyond what they describe: whether one of them may not stand in a stream of KIND 1. -/
def shapeOnlyType (typ : Nat) : Bool := typ = 0x10 || typ = 0x1F

/-- Whether the records that a stream holds are those of its KIND (R375, R384): a stream of KIND 1 holds one SHAPE record and an
END record whose FRAMES is 0, and no other. -/
def Stream.kindOk (x : Stream) (shapeOnly : Bool) : Bool :=
  !shapeOnly || (x.types.all shapeOnlyType && x.shape.isSome && (x.fin.map Prod.fst) = some 0)

/-- CRC_ALL of the frames described (R376): the table is in ascending dense index. -/
def Stream.crcAll (x : Stream) : Word := crc32c (x.frames.flatMap (fun f => leBytes 4 f.2.2.toNat))

/-- Steps 9c to 9f: records, frame CRCs, frame count, final CRC (R380). -/
def State.checkPlain (s : State) (hdr : BitVec 1024) (plain : List Byte) (runtime : Bool) : Checked :=
  if segField hdr 40 8 = 1 && !runtime then .failed 0x0B
  else
    match s.readRecords (plain.length + 1) { frames := [], maps := [], shape := none, fin := none } plain with
    | none => .failed 0x0B
    | some x =>
      if !x.kindOk runtime then .failed 0x0B
      else if x.frames.any (fun f => frameCrc f.2.1 ≠ f.2.2) then .failed 0x0C
      else
        match x.fin with
        | none => .failed 0x0B
        | some (n, crc) =>
          if n ≠ x.frames.length || n ≠ segField hdr 128 32 then .failed 0x0D
          else if crc ≠ x.crcAll then .failed 0x0E
          else .passed x

/-- Steps 9a to 9f: key, tag, and what the plaintext says (R372, R380). -/
def State.checkStream (s : State) (seg : Seg) (runtime : Bool) : Checked :=
  match s.keyOf seg.hdr with
  | none => .failed 9
  | some key =>
    let g := decryptSeg key seg
    if g.ok then s.checkPlain seg.hdr g.plain runtime else .failed 0x0A

/-- All checks of a segment from step 2 to 9f. -/
def State.checkSegment (s : State) (seg : Seg) (runtime inside : Bool) : Checked :=
  let c := s.headerFault seg runtime inside
  if c ≠ 0 then .failed c else s.checkStream seg runtime

/-- The plaintext of a segment, where its key is present. -/
def State.plainOf (s : State) (seg : Seg) : List Byte := ((s.keyOf seg.hdr).map (fun k => (decryptSeg k seg).plain)).getD []

/-- The plaintext is held in the larders of a region while its segment is checked and written (R372): from byte 0 of the first
cluster's larder on, each larder filled before the next (log 49). -/
def State.holdPlain (s : State) (r : Nat) (plain : List Byte) : State :=
  let n := s.larderSize
  s.each [0, 1, 2, 3] (fun s i => s.putBytes (larderAt (4 * r + i) 0) ((plain.drop (n * i)).take n))

/-- The shape records of a stream; a stream without any gives every field its default (R379). -/
def Stream.recs (x : Stream) : List (BitVec 64) := x.shape.getD []

/-! ### CFG_ERR (R387) -/

/-- Record a failure: FIRST keeps the first code, SEEN gathers all. PARTIAL and SHAPE_ONLY tell what FIRST came from, and PARTIAL
reads 1 once a partial reload has failed (R383; R387 and Table 13-12 say the same where the reload was the first failure). -/
def Cfg.record (c : Cfg) (code : Nat) (part shapeOnly : Bool) : Cfg :=
  { c with
    first := if c.first = 0 then code else c.first
    partial_ := c.partial_ || part
    shapeOnly := if c.first = 0 then shapeOnly else c.shapeOnly
    seen := c.seen ||| BitVec.ofNat 15 (2 ^ (code - 1)) }

/-! ### Writing frames (R377, R385, R386) -/

/-- Put frames into a table of frames: those that pass take the stream's data, zero where it has none. -/
def replaceFrames {α : Type} (dflt : α) (which : Nat → Bool) (new old : Tbl α) : Tbl α :=
  (List.range 7440).foldr (fun d t =>
    match (if which d then Tbl.find d new else Tbl.find d old) with
    | some x => (d, x) :: t
    | none => if which d then (d, dflt) :: t else t) []

/-- Write the frames that pass into the fabric (R377, R386). -/
def State.writeFabric (s : State) (which : Nat → Bool) (frames : Tbl (BitVec 4096)) : State :=
  { s with fabric := replaceFrames 0 which frames s.fabric }

/-- Write the shadow, its CRC table and the maps of the frames that pass, and the key source of the segment (R378, R385). -/
def State.writeShadow (s : State) (which : Nat → Bool) (frames : Tbl (BitVec 4096)) (maps : Tbl (BitVec 128)) (h : BitVec 1024) :
    State :=
  { s with attic := { s.attic with
      shadow := replaceFrames 0 which frames s.attic.shadow
      shadowCrc := replaceFrames (frameCrc 0) which (frames.map (fun f => (f.1, frameCrc f.2))) s.attic.shadowCrc
      emap := replaceFrames (BitVec.allOnes 128) which maps s.attic.emap
      keySrc := segField h 96 2
      keySlot := segField h 98 3 } }

/-- Frames that failed their read-back hold what they hold: free values (R380). -/
def State.looseFrames (s : State) (which : Nat → Bool) : State :=
  { s with fabric := replaceFrames 0 which (((List.range 7440).filter which).map (fun d => (d, Config.freeFrame (s.free + d)))) s.fabric
           free := s.free + 7440 }

/-- Word w of hard-block frame i (R363). -/
def State.hardWord (s : State) (i w : Nat) : Word := (s.frame (7424 + i)).extractLsb' (32 * w) 32

/-- The registers whose reset values the hard-block frames carry (R363, R415, Table 19-5). -/
def State.takeHard (s : State) : State :=
  { s with hard := { serdes := (List.range 9).map (fun w => (w, s.hardWord 0 w)), link := s.hardWord 12 0,
                     powerCfg := s.hardWord 13 0, fallback := s.hardWord 14 0 }
           scrub := { s.scrub with copy0 := s.hardWord 15 0, copy1 := s.hardWord 15 0, copy2 := s.hardWord 15 0 } }

end Sys2Proof.Machine
end

