-- ==== Sys2Proof/Machine/Parcel.lean ====
section
/-! DEFINITION. Parcels: how one is opened into sealed objects (16). -/
namespace Sys2Proof.Machine

/-- The current bytes of an object as the root-of-trust processor reads them, as a number. -/
def State.srcNat (s : State) (slot b n : Nat) : Nat :=
  let o := s.obj slot
  s.objNat o (o.committed && s.current o) b n

/-- The die's identity digest (R446). -/
def State.rid (s : State) : BitVec 384 := identityDigest s.sec.identity

/-- Bytes of a source object. -/
def State.srcBytes (s : State) (slot b n : Nat) : List Byte := leBytes n (s.srcNat slot b n)

/-- Bytes of the recipient entries before one (R451). -/
def entryAt (i : Nat) : Nat := 192 + 112 * i

/-- Whether a parcel's header is legal and the parcel fits its object (R451, Table 16-2). -/
def State.parcelOk (s : State) (slot : Nat) : Bool :=
  let n := s.srcNat slot 5 1
  let len := s.srcNat slot 8 4
  decide (192 ≤ (s.obj slot).size) && s.srcNat slot 0 4 = 0x5A504331 && s.srcNat slot 4 1 = 1 && decide (1 ≤ n) && decide (n ≤ 64) &&
    s.srcNat slot 6 2 = 0 && decide (512 ≤ len) && s.srcNat slot 12 4 = 0 && s.srcNat slot 60 4 = 0 && s.srcNat slot 161 31 = 0 &&
    decide (entryAt n + len ≤ (s.obj slot).size)

/-- Whether a slice is one that a parcel can be opened into (Table 16-5, code 6). -/
def State.sliceOk (s : State) (content part : Nat) (x : Slice) : Bool :=
  x.len != 0 && decide (x.off + x.len ≤ content) && decide (x.tier < 2) && s.active x.home.val && s.shape.part x.home.val = part

/-- The first recipient entry that carries the die's RID. -/
def State.recipient (s : State) (slot : Nat) : Option Nat :=
  (List.range (s.srcNat slot 5 1)).find? (fun i => s.srcNat slot (entryAt i) 48 = s.rid.toNat)

/-- The content key that a recipient entry carries for this die: WKEY under the wrap key of R452, and whether WTAG verifies. -/
def State.unwrap (s : State) (slot entry : Nat) : Gcm :=
  let id := s.srcBytes slot 16 16
  let e (b n : Nat) : List Byte := s.srcBytes slot (entryAt entry + b) n
  gcmOpen (wrapKey s.sec.identity (s.srcBytes slot 64 97) id) (beNat (e 48 12)) (id ++ leBytes 48 s.rid.toNat) (e 60 32) (beNat (e 92 16))

/-- PAYLOAD_LEN of the parcel that is opened. -/
def Opening.len (o : Opening) : Nat := bitsN o.hdr.toNat 64 32

/-- The payload of the parcel that is opened, decrypted under its content key (R452). -/
def State.payloadOf (s : State) (o : Opening) : Gcm :=
  let h := leBytes 192 o.hdr.toNat
  gcmOpen (beNat (leBytes 32 o.key.toNat)) (beNat ((h.drop 32).take 12)) (h.take 44 ++ List.replicate 16 0 ++ h.drop 60)
    (s.srcBytes o.src (entryAt (bitsN o.hdr.toNat 40 8)) o.len) (beNat ((h.drop 44).take 16))

/-- Allocate the slice objects in order, unreachable; none where one cannot be allocated (R256, R454). The second list is what
had been allocated by then. -/
def State.allocSlices (s : State) (owner : BitVec 12) (part : Nat) : List Slice → List Nat → Bool × List Nat × State
  | [], got => (true, got, s)
  | x :: r, got =>
    let o : Obj := { Obj.fresh with part := part, owner := owner, ownerDie := s.die, tier := x.tier, home := x.home.val,
                                    size := x.len, hidden := true }
    match s.allocate o with
    | none => (false, got, s)
    | some (i, s) => State.allocSlices s owner part r (got ++ [i])

/-- An opening ends with a code of Table 16-5. -/
def State.parcelCode (s : State) (code : Nat) : State := { s with sec := { s.sec with parcelCode := code, lastAns := .code code } }

/-- Steps 1 to 3 of an opening (R454): the first check that fails ends it. -/
def State.startOpen (s : State) (a : OpenAsk) : State :=
  let x := s.ctx a.owner.toNat
  let s := { s with sec := { s.sec with parcelNSlice := a.slices.length, openWaits := none } }
  if x.st ≠ .live then s.parcelCode 8
  else
    match s.live a.src none with
    | none => s.parcelCode 2
    | some src =>
      if (s.obj src).owner ≠ a.owner || (s.obj src).ownerDie ≠ s.die || !s.parcelOk src then s.parcelCode 2
      else
        let len := s.srcNat src 8 4
        let s := { s with sec := { s.sec with parcelId := BitVec.ofNat 32 (s.srcNat src 16 4) } }
        if !a.slices.all (s.sliceOk (len - 512) x.part) then s.parcelCode 6
        else
          match s.recipient src with
          | none => s.parcelCode 3
          | some e =>
            let g := s.unwrap src e
            if !g.ok then s.parcelCode 4
            else
              let hdr := BitVec.ofNat 1536 (s.srcNat src 0 192)
              let (ok, slots, s) := s.allocSlices a.owner x.part a.slices []
              if !ok then (s.each slots (fun s i => s.dropObj i .freed)).parcelCode 7
              else
                let s := s.addRefs [src]
                { s with sec := { s.sec with opening := some { owner := a.owner, src := src, slots := slots, slices := a.slices,
                                                               hdr := hdr, key := BitVec.ofNat 256 (leNat g.plain) } } }

/-- NDIG of a policy block. -/
def policyDigs (p : List Byte) : Nat := bitsN (leNat (p.take 1)) 0 4

/-- Whether a policy block is legal (Table 16-4). -/
def policyOk (p : List Byte) (len : Nat) : Bool :=
  let at_ (lo n : Nat) : Nat := leNat ((p.drop lo).take n)
  decide (1 ≤ policyDigs p) && decide (policyDigs p ≤ 8) && bitsN (at_ 0 1) 4 4 = 0 && bitsN (at_ 1 1) 2 6 = 0 && at_ 2 2 = 0 &&
    at_ 4 4 = len - 512 && at_ 8 8 = 0 && at_ 400 112 = 0

/-- What a policy block says (R453). -/
def policyOf (p : List Byte) : Seal where
  digests := (List.range (policyDigs p)).map (fun k => BitVec.ofNat 384 (leNat ((p.drop (16 + 48 * k)).take 48)))
  shareOk := bitN (leNat ((p.drop 1).take 1)) 0
  spanOk := bitN (leNat ((p.drop 1).take 1)) 1

/-- Write bytes into an object from its byte 0. -/
def State.fillObj (s : State) (slot : Nat) (bs : List Byte) : State :=
  ((List.range bs.length).zip bs).foldl (fun s p =>
    match (s.objByte (s.obj slot) false p.1).flat with
    | some a => { s with mem := memSet a p.2 s.mem }
    | none => s) s

/-- Whether every slice object of an opening still stands. -/
def State.slicesStand (s : State) (o : Opening) : Bool := o.slots.all (fun i => (s.obj i).st = .live && (s.obj i).hidden)

/-- An opening fails: its objects are zeroed and reclaimed, the reference to the source goes (R454). -/
def State.failOpen (s : State) (o : Opening) (code : Nat) : State :=
  let s := s.each o.slots (fun s i => if (s.obj i).hidden then s.dropObj i .freed else s)
  let s := s.dropRefs [o.src]
  { s with sec := { s.sec with opening := none } }.parcelCode code

/-- Steps 4 and 5: the plaintext is written, and every slice object is LIVE as a sealed object at once (R454, R456). -/
def State.finishOpen (s : State) (o : Opening) (plain : List Byte) : State :=
  let policy := policyOf (plain.take 512)
  let content := plain.drop 512
  let s := (o.slots.zip o.slices).foldl (fun s p => s.fillObj p.1 ((content.drop p.2.off).take p.2.len)) s
  let s := s.each o.slots (fun s i => s.onObj i (fun x => { x with hidden := false, policy := some policy }))
  let s := s.dropRefs [o.src]
  let hs := o.slots.map s.handle
  { s with sec := { s.sec with opening := none, parcelCode := 0, lastAns := .handles hs, opened := satTo 65535 (s.sec.opened + 1) } }

/-- The end of an opening's decryption (R454, R455). Bytes of the source that could not be read leave a payload that does not verify
(log 41). -/
def State.endOpen (s : State) (o : Opening) (readOk : Bool) : State :=
  let g := s.payloadOf o
  if (s.ctx o.owner.toNat).st ≠ .live then s.failOpen o 8
  else if !s.slicesStand o then s.failOpen o 7
  else if !readOk || !g.ok then s.failOpen o 5
  else if !policyOk (g.plain.take 512) o.len then s.failOpen o 2
  else s.finishOpen o g.plain

end Sys2Proof.Machine
end

