-- ==== Sys2Proof/Machine/Coolant.lean ====
section
/-! DEFINITION. Images that wait, interrupted reloads, coolant and planned capacity changes (13, 14, 15). -/
namespace Sys2Proof.Machine

/-! ### What waits for a reload or an opening (R369, R455) -/

/-- A new image in the attic (R368). -/
def Attic.rewrite (a : Attic) (hdr : BitVec 2048) (segs : List Seg) : Attic :=
  let b := imageBytes hdr segs
  { a with valid := true, len := b.length, crc := crc32c b, writes := (a.writes + 1) % 2 ^ 32, hdr := hdr, segs := segs,
           waiting := [] }

/-- What waited for a reload begins: the image writes in the order they came, then a parcel opening (R369, R455). -/
def State.writeWaiting (s : State) : State :=
  let s : State := { s with attic := s.attic.waiting.foldl (fun (a : Attic) w => a.rewrite w.1 w.2) s.attic }
  match s.sec.openWaits with
  | none => s
  | some a => s.startOpen a

/-! ### Coolant and the thermal stop (R431 to R435, R487, R491) -/

/-- The tasks that run with a cluster on this die. -/
def State.runningHere (s : State) : List Nat :=
  (s.tasks.filter (fun p => (p.2.life = .running || p.2.life = .aborting) &&
    (p.2.clusters ≠ [] || p.2.layout.any (fun d => d.1 / 2 = s.die / 2)))).map Prod.fst

/-- Zero every shelf, spare shelf and larder of a region, and reset its tiles, clusters and flip-flops; a run-time substitution
there ends (R142, R359, R403, R406). -/
def State.zeroRegion (s : State) (r : Nat) : State :=
  let cs := [4 * r, 4 * r + 1, 4 * r + 2, 4 * r + 3]
  let s := s.each cs (fun s c =>
    { s with mem := memClear (larderAt c 0) (larderAt c 0 + 2 ^ 24) (memClear (shelfAt (17 * c) 0) (shelfAt (17 * c + 17) 0) s.mem)
             tiles := s.tiles.filter (fun t => t.1 / 17 ≠ c) })
  (s.each cs (fun s c => s.onCluster c (fun x =>
    { Cluster.fresh with spare := if x.spare.fused then x.spare else { Cluster.fresh.spare with count := x.spare.count } }))).initFlops
      (inArea r)

/-- A reload that runs is interrupted: a region in reset stays so, empty (R407), and what waited for the reload begins (R369). One
that still drains just ends. -/
def State.interruptReload (s : State) : State :=
  if s.reload.st = 1 then { s with reload := { s.reload with st := 6 } }.writeWaiting
  else if s.reload.st = 2 || s.reload.st = 3 then
    let t := (s.clearFrames s.reload.target).zeroRegion s.reload.target
    { t with reload := { s.reload with st := 6 } }.writeWaiting
  else s

/-- The package stops: its runs are aborted and ACLK is gated; SRAM, fabric and commit table stay (R432). -/
def State.stopPackage (s : State) : State :=
  let ks := s.runningHere
  let s := { s with power := { s.power with aclkStop := true },
                    faults := { s.faults with cool := if s.faults.stopped || s.faults.thermal then s.faults.cool else s.now } }
  (s.each ks (fun s k => s.abortRun k .coolant)).interruptReload

/-- The package runs again: wait limits go on from where they stood, and the tasks it stopped run again in ascending sequence
(R433, R434). -/
def State.startPackage (s : State) : State :=
  let gone (y : HostQ) : Nat := s.now - max s.faults.cool y.blockedAt
  let later (y : HostQ) : HostQ := if y.st = .blocked then { y with blockedAt := y.blockedAt + gone y } else y
  let t : State := { s with queues := Tbl.mapVals (fun _ y => later y) s.queues
                            power := { s.power with aclkStop := false } }
  let mine := (t.tasks.filter (fun p => p.2.cause = some .coolant)).map Prod.fst
  t.each mine State.rerun

/-- COOLANT_LOSS: COOLANT_OK has been low for 250 MCLK cycles (R431, R432). -/
def execCoolantLoss (s : State) : Out :=
  if s.faults.stopped then .next { s with faults := { s.faults with coolOk := false } }
  else
    let s := s.stopPackage
    .next { s with faults := { s.faults with coolOk := false, stopped := true, stops := satTo 255 (s.faults.stops + 1) } }

/-- COOLANT_RETURN: COOLANT_OK has been high for 125,000 MCLK cycles (R434). -/
def execCoolantReturn (s : State) : Out :=
  let was := s.faults.stopped
  let s := { s with faults := { s.faults with coolOk := true, stopped := false } }
  .next (if was && !s.faults.thermal then s.startPackage else s)

/-! ### Planned capacity changes (R436 to R438) -/

/-- The regions of the unit that CAPACITY names. -/
def State.capUnit (s : State) : List Nat :=
  if s.faults.capScope then (List.range 8).filter s.present else [s.faults.capRegion]

/-- OP 0b01 of CAPACITY: a withdrawal begins, or is rejected where a LIVE shelf or larder object is at home in the unit
(R437). -/
def State.withdraw (s : State) (scope : Bool) (region : Nat) : State :=
  let s := { s with faults := { s.faults with capScope := scope, capRegion := region, capRestore := false } }
  let unit := s.capUnit
  let homed := s.objs.any (fun p => p.2.st = .live && p.2.tier ≠ 2 && unit.contains (p.2.home / 4))
  { s with faults := { s.faults with capSt := if homed then 4 else 1 } }

/-- OP 0b10 of CAPACITY: a restoration begins (R438). -/
def State.restore (s : State) (scope : Bool) (region : Nat) : State :=
  { s with faults := { s.faults with capScope := scope, capRegion := region, capRestore := true, capSt := 2 } }

/-- Whether every cluster of the unit is idle. -/
def State.unitIdle (s : State) : Bool :=
  (List.range 32).all (fun c => !s.capUnit.contains (c / 4) ||
    ((s.cluster c).task.isNone && (s.cluster c).phase = .idle && (s.cluster c).resv.isNone))

/-- Whether an accepted task needs more clusters than will remain (R437, step 2). -/
def State.needsMore (s : State) : Bool :=
  s.tasks.any (fun p => p.2.die = s.die && s.clusterLimit p.2.part < p.2.ncluster)

/-- OUT with the unit's regions set or cleared. -/
def State.outAfter (s : State) (set : Bool) : BitVec 8 :=
  s.capUnit.foldl (fun o r =>
    let m := BitVec.ofNat 8 (2 ^ r)
    if set then o ||| m else o &&& ~~~m) s.faults.out

/-- CAPACITY_TAKE_EFFECT: the tasks that need the unit have retired and its clusters are idle at a full stop; it leaves the
service, or returns to it (R437, R438). -/
def execCapacityTakeEffect (s : State) : Out :=
  let st := s.faults.capSt
  if st ≠ 1 ∧ st ≠ 2 then .next s
  else if !s.faults.capRestore && s.needsMore then .next s
  else if !s.unitIdle then .next { s with faults := { s.faults with capSt := 2 } }
  else .next { s with faults := { s.faults with capSt := 3, out := s.outAfter (!s.faults.capRestore) } }

end Sys2Proof.Machine
end

