-- ==== Sys2Proof/Machine/Startup.lean ====
section
/-! DEFINITION. Power, the chain port, start-up, staged release and partial reload (13, 14). -/
namespace Sys2Proof.Machine

/-! ### Power (R393, R267) -/

/-- What a loss of power leaves: fuses, attic, key store, memory beyond the cellar ports, and the commit records with what steps 3
to 5 of their tasks need, which R267 repeats: those tasks, and the objects that they name. Everything else is as after reset. -/
def State.kept (s : State) : State :=
  let ts := s.tasks.filter (fun p => s.commits.any (fun r => r.task = p.1))
  let keep (i : Nat) (o : Obj) : Bool :=
    (match o.writer with
      | some k => s.commits.any (fun r => r.task = k)
      | none => false) ||
    ts.any (fun p => p.2.refs.contains i || p.2.allocs.contains i || p.2.frees.contains i ||
      p.2.named.any (fun n => n.die = s.die && n.slot = i) || (p.2.signal ≠ 0 && handleDie p.2.signal = s.die && handleSlot p.2.signal = i))
  { State.reset with
    now := s.now
    free := s.free
    pending := s.pending
    mem := s.mem.filter (fun c => 2 ^ 50 ≤ c.1)
    build := s.build
    grade := s.grade
    hw := Tbl.mapVals (fun _ h => { TileHw.fresh with fmax := h.fmax }) s.hw
    clusters := (s.clusters.filter (fun c => c.2.spare.fused)).map (fun c =>
      (c.1, { Cluster.fresh with spare := { c.2.spare with release := false, count := 0 } }))
    attic := { s.attic with waiting := [] }
    commits := s.commits
    tasks := ts
    objs := s.objs.filter (fun p => keep p.1 p.2)
    sec := { State.reset.sec with fuseKey := s.sec.fuseKey, anchors := s.sec.anchors, slots := s.sec.slots,
                                  vbatLost := s.sec.vbatLost, identity := s.sec.identity, selects := s.sec.selects } }

/-- POWER_GOOD: the die is in POWER, its straps sampled (R388, R393). -/
def execPowerGood (head inpkg : Bool) (s : State) : Out :=
  let t := s.kept
  .next { t with start := { t.start with head := head, inpkg := inpkg, poweredAt := s.now } }

/-- POWER_LOSS: SERVING ends and volatile state is lost (R267, R393). -/
def execPowerLoss (s : State) : Out := .next s.kept

/-- ROOT_LOCK: the root has locked, and MCLK is the configuration clock (R394, R471). -/
def execRootLock (s : State) : Out := .next { s with power := { s.power with rootLock := true } }

/-- Back to POWER by a restart: the die loads again; the root-of-trust processor and its sessions, CFG_ERR, the straps and
the root go on (R387, R398). PROBE_EN reads 0 (R365). -/
def State.restarted (s : State) : State :=
  let t := s.kept
  { t with cfg := s.cfg
           sec := { s.sec with opening := none, openWaits := none, fallback := true, cause := 1, probeEn := false }
           power := { t.power with rootLock := s.power.rootLock, mon := s.power.mon }
           faults := { t.faults with coolOk := s.faults.coolOk }
           start := { t.start with head := s.start.head, inpkg := s.start.inpkg, poweredAt := s.start.poweredAt,
                                   restartOut := true } }

/-- A full load has failed, or a reload of the privileged shells: FAILED, ERROR_N asserted (R382, R397). -/
def State.failed (s : State) : State :=
  { s with start := { s.start with st := 8, errorN := true, done := false, frames := [], maps := [], shapeRecs := [] } }

/-- A full load fails with a code (R382, R387). -/
def State.failLoad (s : State) (code : Nat) : State := { s with cfg := s.cfg.record code false false }.failed

/-! ### The chain (R390 to R392) -/

/-- POSITION that a die sends (R391). -/
def nextPos (p : Nat) (inpkg : Bool) : Nat := if inpkg then p + 1 else 2 * (p / 2 + 1)

/-- Region shells of present regions are ON from POWER (R479). -/
def State.raiseShells (s : State) : State :=
  s.each ((List.range 8).filter s.present) (fun s r => s.setDomain (192 + r) { s.domain (192 + r) with st := 2, want := none })

/-- POWER_STATE_END: the head die reads its attic, checks step 1 and starts forwarding; another die receives (R392, R393,
R446). -/
def execPowerStateEnd (idOk : Bool) (s : State) : Out :=
  if s.start.st ≠ 0 then .next s
  else
    let s := { s with sec := { s.sec with idOk := idOk } }.raiseShells
    if !s.start.head then .next { s with start := { s.start with st := 2, rxAt := s.now } }
    else
      let c := s.attic.fault
      if c ≠ 0 then .next (s.failLoad c)
      else
        let rest := (List.range (s.attic.nseg - 1)).map (fun i => s.attic.sent (i + 1))
        .next { s with start := { s.start with
          st := 1
          pos := 0
          rxAt := s.now
          rx := some (s.attic.seg 0)
          chainOut := s.start.chainOut ++ [(BitVec.ofNat 8 (nextPos 0 s.start.inpkg), rest)] } }

/-- Whether a die still waits for bytes of its segment. -/
def Startup.owes (u : Startup) : Bool :=
  match u.rx with
  | none => true
  | some g => decide (g.body.length < segLen g)

/-- CHAIN_STREAM: the first segment is the die's own, and with its last byte the die checks it; a die that has none yet keeps it
and forwards the rest, whatever its verdict; LEFT 0 is forwarded as it is (R382, R390 to R393). LEFT is the length of the list. -/
def execChainStream (pos : Byte) (segs : List Seg) (s : State) : Out :=
  if !(s.start.st = 2 || s.start.st = 8) || s.start.head || s.start.rx.isSome || s.start.rxBroken then .next s
  else if 16 ≤ pos.toNat then .next { s with start := { s.start with rxBroken := true } }
  else
    let p := if s.start.st = 2 then pos.toNat else s.start.pos
    let out := (BitVec.ofNat 8 (nextPos pos.toNat s.start.inpkg), segs.drop 1)
    let u : Startup := { s.start with pos := p, rx := segs.head?, rxAt := s.now, chainOut := s.start.chainOut ++ [out] }
    .next { s with start := { u with st := if u.st = 2 && !u.owes then 3 else u.st } }

/-- CHAIN_CODING_ERROR: the rest of the stream is ignored and nothing more is forwarded (R392). -/
def execChainCodingError (s : State) : Out := .next { s with start := { s.start with rxBroken := true } }

/-- CHAIN_RESTART: K30.7 is forwarded and the die returns to POWER; a die in SERVING discards it (R398). -/
def execChainRestart (s : State) : Out := .next (if s.start.st = 7 then s else s.restarted)

/-- The gap limit in MCLK cycles: 1,250,000 once the root has locked; before, 1,000,000 cycles of the configuration oscillator,
whose fastest is 110 MHz (R381, Table 13-3). -/
def State.gapLimit (s : State) : Nat := if s.power.rootLock then 1250000 else 1136364

/-- GAP_LIMIT_EXPIRE: a segment that still owes bytes, none of which has come for the gap limit, has ended early (R381). -/
def execGapLimitExpire (s : State) : Out :=
  if s.start.st ≠ 2 || !s.start.owes || decide (s.now < s.start.rxAt + s.gapLimit) then .next s
  else
    let s := s.failLoad 0x0D
    .next { s with cfg := { s.cfg with early := true, seen := s.cfg.seen ||| BitVec.ofNat 15 (2 ^ 13) } }

/-! ### The load (R377 to R385, R393 to R396) -/

/-- Frames described for fused-off regions (R377). -/
def State.skips (s : State) (x : Stream) : Nat :=
  (x.frames.filter (fun f => (frameRegion f.1).any (fun r => s.fusedOff r))).length

/-- The bytes of a segment that arrive after its stream began; the gap limit counts from them (R381). -/
def State.takeBytes (s : State) (g : Seg) (last : List Byte) : State :=
  if s.start.head || last = [] || !s.start.owes then s
  else { s with start := { s.start with rx := some { g with body := g.body ++ last }, rxAt := s.now } }

/-- SEGMENT_RECEIVED: the last bytes of the segment arrive, and steps 2 to 9f run; a segment that passes is to be written, its
plaintext held in the larders of region 0 (R372, R380). One that still owes bytes is waited for, unless its header fails: that
needs no ciphertext. -/
def execSegmentReceived (last : List Byte) (s : State) : Out :=
  match s.start.rx with
  | none => .next s
  | some g =>
    let s := if s.start.st = 2 then s.takeBytes g last else s
    let seg := s.start.rx.getD g
    let inside := !s.start.head || s.attic.inside 0
    if !(s.start.st = 1 || s.start.st = 2 || s.start.st = 3) then .next s
    else if s.start.owes && s.headerFault seg false inside = 0 then .next s
    else
      match s.checkSegment seg false inside with
      | .failed c => .next (s.failLoad c)
      | .passed x =>
        let t := s.holdPlain 0 (s.plainOf seg)
        .next { t with
          cfg := { t.cfg with kind := false, npkg := segField seg.hdr 104 4 }
          start := { t.start with st := 4, frames := x.frames.map (fun f => (f.1, f.2.1)), maps := x.maps,
                                  shapeRecs := x.recs, skipped := s.skips x } }

/-- Zero every shelf, larder, queue, mailbox and paragraph store (R445). -/
def State.zeroStores (s : State) : State :=
  { s with mem := s.mem.filter (fun c => 2 ^ 50 ≤ c.1)
           tiles := []
           clusters := Tbl.mapVals (fun _ c => { Cluster.fresh with spare := c.spare }) s.clusters }

/-- FRAME_WRITE: the frames are written and read back, and every flip-flop holds its FF_INIT; shadow, maps and hard-block registers
follow, the shape is checked and applied, and DONE is released (R359, R377, R379, R385, R395, R396, R445). CFG_INFO counts what was
written and skipped whatever follows (R377, R387). -/
def execFrameWrite (verified : Bool) (s : State) : Out :=
  match s.start.rx with
  | none => .next s
  | some seg =>
    if s.start.st ≠ 4 then .next s
    else
      let written := ((List.range 7440).filter s.loads).length
      let s := { s with cfg := { s.cfg with written := written, skipped := s.start.skipped } }
      if !verified then .next ((s.looseFrames s.loads).failLoad 0x0F)
      else
        let recs := s.start.shapeRecs
        let s := (((s.writeFabric s.loads s.start.frames).initFlops s.loads).writeShadow s.loads s.start.frames s.start.maps seg.hdr).takeHard
        if !s.power.rootLock then .next ({ s with start := { s.start with noLock := true } }.failed)
        else
          let s := s.zeroStores
          let (sh, es) := s.checkShape recs
          let s := { s with report := reportOf es 1 }.useShape sh
          .next { s with
            cfg := { s.cfg with first := 0, early := false, partial_ := false, shapeOnly := false, seen := 0 }
            start := { s.start with st := 5, done := true, waitAt := s.now, frames := [], maps := [], shapeRecs := [],
                                    loadMs := satTo 65535 ((s.now - s.start.poweredAt) / 125000) } }

/-! ### DONE and release (R396, R400, R401) -/

/-- DONE_HIGH: DONE has been read high for 16 MCLK cycles, and stage 1 opens the clamps (R396, R400). -/
def execDoneHigh (s : State) : Out :=
  if s.start.st ≠ 5 then .next s
  else .next { s with start := { s.start with st := 6, stage := 1, stageAt := s.now } }

/-- DONE_LATE (R396). -/
def execDoneLate (s : State) : Out :=
  if s.start.st ≠ 5 || decide (s.now < s.start.waitAt + 125000000) then .next s
  else .next { s with start := { s.start with doneLate := true } }

/-- A span port that starts to train (R401, R511). -/
def Span.wake (p : Span) (now : Nat) : Span := { p with st := 1, enterAt := now, stateAt := now }

/-- Stage 3: the links begin to train, the scrubbers start (R401). -/
def State.stage3 (s : State) : State :=
  let ports := if s.spans = 2 then [0, 1] else if s.spans = 1 then [1] else []
  { s with span := ports.foldl (fun t p => Tbl.set p ((Tbl.get Span.fresh t p).wake s.now) t) s.span
           seam := { s.seam with enterAt := s.now }
           scrub := { s.scrub with running := true, refreshAt := s.now, mapAt := s.now, privAt := s.now } }

/-- Every session ends (R447, R467). -/
def Sec.noSessions (x : Sec) : Sec :=
  { x with sessions := [], probeEn := if x.sessions.any (fun p => p.2.probe) then false else x.probeEn }

/-- Fallback ends, and every session with it (R467, R468). -/
def State.endFallback (s : State) : State := { s with sec := { s.sec.noSessions with fallback := false, cause := 0 } }

/-- RELEASE_STAGE: each stage follows the one before after 64 MCLK cycles; with stage 4 the die serves (R400, R401). -/
def execReleaseStage (s : State) : Out :=
  if s.start.st ≠ 6 || decide (s.now < s.start.stageAt + 64) then .next s
  else
    let n := s.start.stage + 1
    let s := { s with start := { s.start with stage := n, stageAt := s.now } }
    if n = 3 then .next s.stage3
    else if n = 4 then .next { s with start := { s.start with st := 7 } }.endFallback
    else .next s

/-! ### Partial reload (R386, R402 to R406, R414) -/

/-- A write of 1 to RELOAD.GO: a reload of a region begins to drain, or is discarded (R402). -/
def State.requestReload (s : State) (r : Nat) : State :=
  let busy := s.reload.st = 1 || s.reload.st = 2 || s.reload.st = 3
  let s := { s with reload := { s.reload with region := r } }
  if busy || !s.present r || s.start.st ≠ 7 then { s with reload := { s.reload with reject := true } }
  else { s with reload := { s.reload with target := r, st := 1 } }

/-- The clusters of a region. -/
def clustersIn (r : Nat) : List Nat := [4 * r, 4 * r + 1, 4 * r + 2, 4 * r + 3]

/-- Step 2 of a reload: the region is in reset and isolated, and every object at home there is removed (R403, R404). -/
def State.enterLoading (s : State) (r : Nat) : State :=
  let slots := (s.objs.filter (fun p => p.2.st = .live && p.2.tier ≠ 2 && (clustersIn r).contains p.2.home)).map Prod.fst
  let s := s.removeObjs slots []
  { s with reload := { s.reload with target := r, st := 2, removed := satTo 255 slots.length, held := Tbl.set r true s.reload.held } }

/-- RELOAD_DRAIN_END: no run is left on the region's clusters (R403); a parcel opening is waited for (R455). -/
def execReloadDrainEnd (s : State) : Out :=
  let idle := (clustersIn s.reload.target).all (fun c =>
    (s.cluster c).task.isNone && (s.cluster c).phase = .idle && (s.cluster c).resv.isNone)
  if s.reload.st ≠ 1 || !idle || s.sec.opening.isSome then .next s else .next (s.enterLoading s.reload.target)

/-- Frames of a region in the build. -/
def State.inRegion (s : State) (r d : Nat) : Bool := s.hasFrame d && frameRegion d = some r

/-- A reload fails: the region stays in reset and empty, which is a loss of it (R383, R406, R439). -/
def State.failReload (s : State) (code : Nat) : State :=
  let r := s.reload.target
  let s := { s with cfg := s.cfg.record code true false, reload := { s.reload with st := 5 } }
  (((s.clearFrames r).zeroRegion r).loseClusters (clustersIn r)).writeWaiting

/-- The place of this die's segment in its own image (R386). -/
def State.ownSegment (s : State) : Option Nat :=
  (List.range s.attic.nseg).find? (fun i => segField (s.attic.seg i).hdr 88 4 = s.start.pos)

/-- RELOAD_LOAD_DONE: this die's segment is read from its own attic and checked; the region's frames are written, its SRAM is
zeroed and its release begins, or the reload fails (R386, R403, R406). Its plaintext, held in the region's larders meanwhile (R372),
goes with their zeroing. The operands tell whether the region's fabric and extension frames, and its sequencer-shell frames, read back
with their CRCs (step 10 of R380). -/
def execReloadLoadDone (fabricOk shellsOk : Bool) (s : State) : Out :=
  let r := s.reload.target
  if s.reload.st ≠ 2 then .next s
  else if s.attic.fault ≠ 0 then .next (s.failReload s.attic.fault)
  else
    match s.ownSegment with
    | none => .next (s.failReload 7)
    | some i =>
      match s.checkSegment (s.attic.seg i) false (s.attic.inside i) with
      | .failed c => .next (s.failReload c)
      | .passed x =>
        let which := s.inRegion r
        let s := { s with cfg := { s.cfg with written := ((List.range 7440).filter which).length, skipped := s.skips x, kind := false } }
        if !(fabricOk && shellsOk) then .next (s.failReload 0x0F)
        else
          let fs := x.frames.map (fun f => (f.1, f.2.1))
          let s := ((s.writeFabric which fs).writeShadow which fs x.maps (s.attic.seg i).hdr).zeroRegion r
          .next { s with reload := { s.reload with st := 3, releaseAt := s.now } }

/-- Step 4 of a reload ends: isolation, write enables and reset have followed each other, 64 MCLK cycles between each, and the
region is back in service (R403). What waited for the reload begins. -/
def State.endRelease (s : State) : State :=
  if s.reload.st = 3 && decide (s.reload.releaseAt + 128 ≤ s.now) then
    { s with reload := { s.reload with st := 4, held := Tbl.del s.reload.target s.reload.held } }.writeWaiting
  else s

/-- The head die has read segment 0 from its attic, 16 bytes in a cycle, and checks it (R393, R394). -/
def State.atticRead (s : State) : State :=
  match s.start.rx with
  | some g => if s.start.st = 1 && decide (s.start.rxAt + (segBytes g).length / 16 ≤ s.now) then
      { s with start := { s.start with st := 3 } } else s
  | none => s

end Sys2Proof.Machine
end

