-- ==== Sys2Proof/Machine/Scrub.lean ====
section
/-! DEFINITION. Scrubbing: the map reader, the privileged reader, end reads, the scrubber's own registers, and SCRUB_LOST (14). -/
namespace Sys2Proof.Machine

/-! ### SCRUB_CFG (R415, Table 14-12) -/

/-- The voted value of three copies; none where all differ (R415, R416). -/
def vote3 (a b c : Word) : Option Word := if a = b || a = c then some a else if b = c then some b else none

/-- SCRUB_CFG as it is read. -/
def State.scrubCfg (s : State) : Word := (vote3 s.scrub.copy0 s.scrub.copy1 s.scrub.copy2).getD s.scrub.copy0

/-- An interval of SCRUB_CFG in MCLK cycles: units of 16, 0 read as 1. -/
def State.scrubInterval (s : State) (lo : Nat) : Nat := 16 * max 1 (bitsN s.scrubCfg.toNat lo 8)

/-! ### Comparing and rewriting frames (R409 to R414) -/

/-- The 32-bit words in which two frames differ. -/
def wordsDiff (a b : BitVec 4096) : BitVec 128 :=
  BitVec.ofNat 128 ((List.range 128).foldl (fun m w =>
    if a.extractLsb' (32 * w) 32 = b.extractLsb' (32 * w) 32 then m else m + 2 ^ w) 0)

/-- The bits in which two frames differ, counted. -/
def bitsDiff (a b : BitVec 4096) : Nat := (List.range 4096).foldl (fun n i => if a.getLsbD i = b.getLsbD i then n else n + 1) 0

/-- A frame whose listed words are taken from another. -/
def mixWords (m : BitVec 128) (from_ into : BitVec 4096) : BitVec 4096 :=
  BitVec.ofNat 4096 ((List.range 128).foldl (fun x w =>
    x + ((if m.getLsbD w then from_ else into).extractLsb' (32 * w) 32).toNat * 2 ^ (32 * w)) 0)

/-- Write a frame of the fabric. -/
def State.setFrame (s : State) (d : Nat) (x : BitVec 4096) : State := { s with fabric := Tbl.set d x s.fabric }

/-- Whether a cluster's run is still at work. -/
def Cluster.atWork (x : Cluster) : Bool :=
  x.task.isSome && !(x.phase = .ended || x.phase = .stopped || x.phase = .copying || x.phase = .idle)

/-- Abort the runs that still work on the listed clusters for a fault found in a frame (R411). -/
def State.frameFault (s : State) (cs : List Nat) (cls d : Nat) : State :=
  let hit := cs.filter (fun c => (s.cluster c).atWork)
  hit.foldl (fun s c =>
    match (s.cluster c).task with
    | none => s
    | some k => s.abortRun k (.fault cls (frameAddr d) c 31)) s

/-- A shadow frame of a region fails its CRC: the region is reloaded from step 2, its runs end CAPACITY_REMOVED (R414). A
reload of another region that is under way is not overtaken: the region then stays in reset. -/
def State.shadowLost (s : State) (r d : Nat) : State :=
  let busy := s.reload.st = 1 || s.reload.st = 2 || s.reload.st = 3
  let s := s.logFault (eventEntry 12 5 (4 * r) (frameAddr d))
  let s := if busy then { s with reload := { s.reload with held := Tbl.set r true s.reload.held } } else s.enterLoading r
  s.loseClusters (clustersIn r)

/-- Note a difference in SCRUB_STATUS (Table 14-11). -/
def State.noteFrame (s : State) (d kind : Nat) : State := { s with scrub := { s.scrub with lastAddr := frameAddr d, kind := kind } }

/-- Rewrite a mapped frame's words from the shadow, once the shadow frame is checked (R410, R411, R414). -/
def State.repairMapped (s : State) (d : Nat) (m : BitVec 128) : State :=
  if s.shadowOk d then s.setFrame d (mixWords m (s.shadowOf d) (s.frame d))
  else s.shadowLost (d / 896) d

/-- An essential difference: the runs it touches are aborted, the frame is rewritten (R411). -/
def State.essentialFound (s : State) (d : Nat) : State :=
  let s := ({ s with scrub := { s.scrub with ess := satTo 255 (s.scrub.ess + 1), again := Tbl.del d s.scrub.again } }).noteFrame d 1
  let s := match frameCluster d with
    | some c => s.frameFault [c] 7 d
    | none => s.frameFault (clustersIn (d / 896)) 6 d
  s.repairMapped d (BitVec.allOnes 128)

/-- A frame of which only non-essential words differ: what differed before is rewritten, what is new is recorded and waits
for the next pass, unless DEFER is 0 (R410). -/
def State.nonEssentialFound (s : State) (d : Nat) (diff : BitVec 128) : State :=
  let old := Tbl.get 0 s.scrub.again d
  let fresh := diff &&& ~~~old
  let still := if s.scrubCfg.getLsbD 24 then diff &&& old else diff
  let s := if fresh = 0 then s
    else ({ s with scrub := { s.scrub with noness := satTo 65535 (s.scrub.noness + 1) } }).noteFrame d 0
  let wait := if s.scrubCfg.getLsbD 24 then fresh else 0
  let again := if wait = 0 then Tbl.del d s.scrub.again else Tbl.set d wait s.scrub.again
  let s := { s with scrub := { s.scrub with again := again } }
  if still = 0 then s else s.repairMapped d still

/-- The map reader's verdict on a frame as it stands (R409 to R411). -/
def State.checkMapped (s : State) (d : Nat) : State :=
  if frameCrc (s.frame d) = Tbl.get (frameCrc 0) s.attic.shadowCrc d then
    { s with scrub := { s.scrub with again := Tbl.del d s.scrub.again } }
  else
    let diff := wordsDiff (s.frame d) (s.shadowOf d)
    if diff = 0 then s
    else if diff &&& s.mapOf d ≠ 0 then s.essentialFound d
    else s.nonEssentialFound d diff

/-- Bits of a frame flip. -/
def State.upsetFrame (s : State) (d : Nat) (flips : BitVec 4096) : State := s.setFrame d (s.frame d ^^^ flips)

/-- Whether a frame is scrubbed: it is loaded, and its region is not held in reset (R407). -/
def State.scrubs (s : State) (d : Nat) : Bool :=
  s.loads d && (match frameRegion d with
    | none => true
    | some r => !Tbl.get false s.reload.held r)

/-- Whether a partial reload of a region runs, from its request to the end of step 4 (R403). -/
def Reload.runs (x : Reload) (r : Nat) : Bool := (x.st = 1 || x.st = 2 || x.st = 3) && x.target = r

/-- Whether the map reader reads a frame: it skips those of a region that is being reloaded (R407). -/
def State.mapReads (s : State) (d : Nat) : Bool := mapped d && s.scrubs d && !s.reload.runs (d / 896)

/-- The frames from a list that a reader reads next: the first at or after a position, else the first of all; and whether the
reader started a new pass for it. -/
def nextFrame (ds : List Nat) (pos : Nat) : Option (Nat × Bool) :=
  match ds.find? (fun d => pos ≤ d) with
  | some d => some (d, false)
  | none => ds.head?.map (fun d => (d, true))

/-- MAP_SCRUB_FRAME: at its interval the map reader takes the next region-fabric or extension frame, in which bits may have
flipped, and checks it (R408 to R411). -/
def execMapScrubFrame (flips : BitVec 4096) (s : State) : Out :=
  let ds := (List.range 7168).filter s.mapReads
  if !s.scrub.running || decide (s.now < s.scrub.mapAt + s.scrubInterval 0) then .next s
  else
    match nextFrame ds s.scrub.mapPos with
    | none => .next s
    | some (d, _) =>
      let last := !ds.any (fun e => d < e)
      let s := { s with scrub := { s.scrub with
        mapAt := s.now
        mapPos := if last then 0 else d + 1
        pass := if last then (s.scrub.pass + 1) % 65536 else s.scrub.pass } }
      .next ((s.upsetFrame d flips).checkMapped d)

/-! ### SCRUB_LOST (R415 to R417) -/

/-- Fallback begins, and every session ends (R467). -/
def State.beginFallback (s : State) (cause : Nat) : State :=
  if s.sec.fallback then s else { s with sec := { s.sec.noSessions with fallback := true, cause := cause, answerAt := s.now } }

/-- Steps 1 and 2 of R417: the scrubbers stop, the front ports hold off, every run on the die is aborted, a reload is
interrupted (R407), and the root-of-trust processor serves (R467). -/
def State.scrubLost (s : State) : State :=
  let s := { s with scrub := { s.scrub with running := false, lost := true } }.logFault (eventEntry 13 6 0 0)
  let ks := (s.tasks.filter (fun p => p.2.life ≠ .pending && p.2.clusters ≠ [])).map Prod.fst
  ((s.each ks (fun s k => s.abortRun k .lost)).interruptReload).beginFallback 2

/-- SCRUB_VOTE: an upset has changed one copy of SCRUB_CFG; the vote rewrites it, or the scrubber is lost (R415, R416). -/
def execScrubVote (copy : Fin 3) (val : Word) (s : State) : Out :=
  let a := s.scrub.copy0
  let b := s.scrub.copy1
  let c := s.scrub.copy2
  let a' := if copy = 0 then val else a
  let b' := if copy = 1 then val else b
  let c' := if copy = 2 then val else c
  if !s.scrub.running then .next s
  else
    match vote3 a' b' c' with
    | none => .next { s with scrub := { s.scrub with copy0 := a', copy1 := b', copy2 := c' } }.scrubLost
    | some v =>
      let wrong := ([(0, a'), (1, b'), (2, c')].filter (fun p => p.2 ≠ v)).map Prod.fst
      let out := (s.scrub.outvoted ++ wrong).eraseDups
      let s := { s with scrub := { s.scrub with copy0 := v, copy1 := v, copy2 := v, outvoted := out,
                                                vote := satTo 255 (s.scrub.vote + wrong.length) } }
      .next (if 2 ≤ out.length then s.scrubLost else s)

/-- SCRUB_REFRESH: every 1,250,000 MCLK cycles the copies are rewritten from shadow frame 7,439; agreeing copies that differ
from it mean that the scrubber is lost (R415, R416). -/
def execScrubRefresh (s : State) : Out :=
  let v := (s.shadowOf 7439).extractLsb' 0 32
  if !s.scrub.running || decide (s.now < s.scrub.refreshAt + 1250000) then .next s
  else
    let bad : Bool := match vote3 s.scrub.copy0 s.scrub.copy1 s.scrub.copy2 with
      | some w => decide (w ≠ v)
      | none => true
    let s := { s with scrub := { s.scrub with copy0 := v, copy1 := v, copy2 := v, outvoted := [], refreshAt := s.now } }
    .next (if bad then s.scrubLost else s)

/-- What a privileged frame with one flipped bit was: the shadow where that is sound, else the frame whose syndrome one bit clears
(R413). None where more than one bit differs. -/
def State.oneBitOff (s : State) (d : Nat) : Option (BitVec 4096) :=
  if s.shadowOk d then (if bitsDiff (s.frame d) (s.shadowOf d) = 1 then some (s.shadowOf d) else none)
  else
    let flip (i : Nat) : BitVec 4096 := s.frame d ^^^ BitVec.ofNat 4096 (2 ^ i)
    ((List.range 4096).find? (fun i => frameCrc (flip i) = Tbl.get (frameCrc 0) s.attic.shadowCrc d)).map flip

/-- PRIV_SCRUB_FRAME: the privileged reader takes the next shell frame: one flipped bit is written back; more abort the
cluster's run, or in a die shell lose the scrubber (R413, R414). -/
def execPrivScrubFrame (flips : BitVec 4096) (s : State) : Out :=
  let ds := (List.range 7424).filter (fun d => !mapped d && s.scrubs d)
  if !s.scrub.running || decide (s.now < s.scrub.privAt + s.scrubInterval 8) then .next s
  else
    match nextFrame ds s.scrub.privPos with
    | none => .next s
    | some (d, _) =>
      let s := { s with scrub := { s.scrub with privAt := s.now, privPos := d + 1 } }.upsetFrame d flips
      if frameCrc (s.frame d) = Tbl.get (frameCrc 0) s.attic.shadowCrc d then .next s
      else
        match s.oneBitOff d with
        | some good =>
          let s := { s with scrub := { s.scrub with privCorr := satTo 255 (s.scrub.privCorr + 1) } }.noteFrame d 2
          .next (s.setFrame d good)
        | none =>
          let s := s.noteFrame d 3
          match frameCluster d with
          | none => .next s.scrubLost
          | some c =>
            let s := s.frameFault [c] 5 d
            .next (if s.shadowOk d then s.setFrame d (s.shadowOf d) else s.scrubLost)

/-- EXT_END_READ: at its interval a frame of a cluster's extension field is read back after the run's last entry has left; a
difference is a fault of the run before it can commit (R412). -/
def execExtEndRead (cl : Fin 32) (index : Fin 128) (flips : BitVec 4096) (s : State) : Out :=
  let c := cl.val
  let x := s.cluster c
  let d := 896 * (c / 4) + 256 + 128 * (c % 4) + index.val
  let early := x.extAt.any (fun a => decide (s.now < a + s.scrubInterval 16))
  if x.phase ≠ .running || !x.paraEnded || !x.extUsed || !x.extIn.isEmpty || !s.scrubs d || early then .next s
  else
    let s := (s.onCluster c (fun x => { x with extAt := some s.now })).upsetFrame d flips
    if frameCrc (s.frame d) = Tbl.get (frameCrc 0) s.attic.shadowCrc d then
      .next (s.onCluster c (fun x => { x with extRead := (index.val :: x.extRead).eraseDups }))
    else
      let diff := wordsDiff (s.frame d) (s.shadowOf d)
      if diff &&& s.mapOf d ≠ 0 then .next (s.essentialFound d)
      else .next ((s.frameFault [c] 7 d).nonEssentialFound d diff)

/-! ### Steps 3 to 6 of R417 -/

/-- The privileged frames of the die. -/
def State.privFrames (s : State) : List Nat := (List.range 7424).filter (fun d => !mapped d && s.scrubs d)

/-- Frame and code of a privileged frame whose shadow has failed: taken from the die's image segment under the checks of Table
13-11, or the code of the check that fails (R417). -/
def State.shellSource (s : State) : Checked :=
  if s.attic.fault ≠ 0 then .failed s.attic.fault
  else
    match s.ownSegment with
    | none => .failed 7
    | some i => s.checkSegment (s.attic.seg i) false (s.attic.inside i)

/-- The data of a frame in a stream; a frame that it does not describe is zero (R377). -/
def Stream.dataOf (x : Stream) (d : Nat) : BitVec 4096 := ((Tbl.find d x.frames).map Prod.fst).getD 0

/-- Steps 3 to 6 of R417: the shells hold their frames again, interrupted commits are repeated, the die's contexts are lost, the
scrubbers run. -/
def State.shellsBack (s : State) (frame : Nat → BitVec 4096) : State :=
  let s := s.each s.privFrames (fun s d => s.setFrame d (frame d))
  let v := (s.shadowOf 7439).extractLsb' 0 32
  let s := s.commits.foldl (fun s r => s.redoCommit r.task) s
  let ids := (s.ctxs.filter (fun p => p.1 < 4096 && p.2.st ≠ .free)).map Prod.fst
  let s := s.each ids (fun s i => s.loseCtx (BitVec.ofNat 12 i) 6 false [])
  { s with
    sec := { s.sec with answerAt := s.now }
    scrub := { s.scrub with running := true, copy0 := v, copy1 := v, copy2 := v, outvoted := [], refreshAt := s.now, mapAt := s.now,
                            privAt := s.now } }

/-- The privileged shells cannot be reloaded: the die fails with a code (R397, R417). -/
def State.shellsFail (s : State) (code : Nat) : State :=
  let s := s.failLoad code
  { s with sec := { s.sec.noSessions with fallback := true, cause := 1 } }

/-- SHELL_RELOAD_DONE: the privileged shells are reloaded and verified, interrupted commits finished, the contexts of the die
lost, and the die serves again; or the die fails: with the code of the image's check, or with 0x0F where a frame does not verify
(R417, R439). -/
def execShellReloadDone (ok : Bool) (s : State) : Out :=
  if s.start.st ≠ 7 || s.scrub.running then .next s
  else if s.privFrames.all s.shadowOk then .next (if ok then s.shellsBack s.shadowOf else s.shellsFail 0x0F)
  else
    match s.shellSource with
    | .failed c => .next (s.shellsFail c)
    | .passed x =>
      .next (if ok then s.shellsBack (fun d => if s.shadowOk d then s.shadowOf d else x.dataOf d) else s.shellsFail 0x0F)

end Sys2Proof.Machine
end

