-- ==== Sys2Proof/Machine/Security.lean ====
section
/-! DEFINITION. The management endpoint: sessions, fallback, lockout, keys, images, identity (13, 16). -/
namespace Sys2Proof.Machine

/-! ### Sessions and roles (R463, R464, R467) -/

/-- SERVICE. -/
def roleService : BitVec 5 := 1
/-- ADMIN. -/
def roleAdmin : BitVec 5 := 2
/-- KEYS. -/
def roleKeys : BitVec 5 := 4
/-- PARCEL. -/
def roleParcel : BitVec 5 := 8
/-- IMAGE. -/
def roleImage : BitVec 5 := 16

/-- An open session. -/
def State.session (s : State) (i : Nat) : Option Session := Tbl.find i s.sec.sessions

/-- Whether a session may give a command that needs one of a set of roles, in fallback only where the command is served
there (R464, R468). -/
def State.allowed (s : State) (i : Nat) (roles : BitVec 5) (inFallback : Bool) : Bool :=
  match s.session i with
  | none => false
  | some x => x.finished && x.roles &&& roles != 0 && (inFallback || !s.sec.fallback)

/-- What the endpoint answers. -/
def State.answer (s : State) (a : MgmtAns) : State := { s with sec := { s.sec with lastAns := a } }

/-- A message inside a session restarts its idle timer (R463). -/
def State.message (s : State) (i : Nat) : State :=
  match s.session i with
  | none => s
  | some x => { s with sec := { s.sec with sessions := Tbl.set i { x with at_ := s.now } s.sec.sessions } }

/-- A command of a session: without its role it is answered with an SPDM error and has no effect (R464). -/
def State.managed (s : State) (i : Nat) (roles : BitVec 5) (inFallback : Bool) (run : State → State) : State :=
  let s := s.message i
  if s.allowed i roles inFallback then run s else s.answer .spdmError

/-- A session ends; PROBE_EN clears if this session set it (R447, R466). -/
def State.endSession (s : State) (i : Nat) : State :=
  match s.session i with
  | none => s
  | some x => { s with sec := { s.sec with sessions := Tbl.del i s.sec.sessions,
                                           probeEn := s.sec.probeEn && !x.probe } }

/-- FAIL_LIMIT (Table 16-13). -/
def State.failLimit (s : State) : Nat := max 1 (bitsN s.hard.fallback.toNat 0 4)

/-- Whether a lockout runs (R469). -/
def State.locked (s : State) : Bool := s.sec.lockedUntil.isSome

/-- An authentication fails: from FAIL_LIMIT on each failure begins a lockout, and the root-of-trust processor takes over
(R467, R469). -/
def State.authFailed (s : State) : State :=
  let n := satTo 255 (s.sec.fails + 1)
  let s := { s with sec := { s.sec with fails := n, lastAns := .spdmError } }
  if n < s.failLimit then s
  else
    let lo := bitsN s.hard.fallback.toNat 4 4
    let hi := bitsN s.hard.fallback.toNat 8 4
    let secs := 2 ^ min (lo + s.sec.lockouts) hi
    { s with sec := { s.sec with lockedUntil := some (s.now + secs * 125000000), lockouts := satTo 255 (s.sec.lockouts + 1) } }.beginFallback 3

/-- The place of a new session: two at most (R463). -/
def State.freeSession (s : State) : Option Nat := [0, 1].find? (fun i => (s.session i).isNone)

/-- KEY_EXCHANGE: refused during a lockout; the requester's chain must validate and its root be a programmed anchor (R463,
R467, R469). -/
def execKeyExchange (valid : Bool) (root : BitVec 384) (roles : BitVec 5) (s : State) : Out :=
  if s.locked then .next (s.answer .busy)
  else if !valid || !s.sec.anchors.contains root then .next s.authFailed
  else
    match s.freeSession with
    | none => .next (s.answer .busy)
    | some i => .next { s with sec := { s.sec with
        sessions := Tbl.set i { roles := roles, at_ := s.now, finished := false, probe := false } s.sec.sessions
        lastAns := .value (BitVec.ofNat 32 i) } }

/-- FINISH: a signature that verifies opens the session and clears FAILS and L; one that does not is a failed authentication
(R467, R469). -/
def execFinish (sess : Fin 2) (ok : Bool) (s : State) : Out :=
  match s.session sess.val with
  | none => .next (s.answer .spdmError)
  | some x =>
    if x.finished then .next ((s.message sess.val).answer .spdmError)
    else if ok then .next { s with sec := { s.sec with
      sessions := Tbl.set sess.val { x with finished := true, at_ := s.now } s.sec.sessions
      fails := 0
      lockouts := 0
      lastAns := .ok } }
    else .next (s.endSession sess.val).authFailed

/-- CHALLENGE: answered with a signed response, refused during a lockout (R469). -/
def execChallenge (s : State) : Out := .next (s.answer (if s.locked then .busy else .ok))

/-- SPDM_HEARTBEAT: restarts the session's idle timer (R463). -/
def execSpdmHeartbeat (sess : Fin 2) (s : State) : Out :=
  .next ((s.message sess.val).answer (if (s.session sess.val).isSome then .ok else .spdmError))

/-- END_SESSION (R447, R466). -/
def execEndSession (sess : Fin 2) (s : State) : Out :=
  .next ((s.endSession sess.val).answer (if (s.session sess.val).isSome then .ok else .spdmError))

/-- SESSION_TIMEOUT: 60 s without a message (R463). -/
def execSessionTimeout (sess : Fin 2) (s : State) : Out :=
  match s.session sess.val with
  | none => .next s
  | some x => if s.now < x.at_ + 60 * 125000000 then .next s else .next (s.endSession sess.val)

/-- LOCKOUT_END: the lockout's time is over; FAILS stays (R469). -/
def execLockoutEnd (s : State) : Out :=
  match s.sec.lockedUntil with
  | none => .next s
  | some t => if s.now < t then .next s else .next { s with sec := { s.sec with lockedUntil := none } }

/-- ENDPOINT_WATCHDOG_MISS: the root-of-trust processor takes over the management port (R467). -/
def execEndpointWatchdogMiss (s : State) : Out :=
  if s.start.st ≠ 7 then .next s
  else
    let s := s.beginFallback 2
    .next { s with sec := { s.sec with answerAt := s.now } }

/-- FALLBACK_END: fallback for a cause other than failed authentications ends once the endpoint has answered its watchdog
for 1 s (R468). -/
def execFallbackEnd (s : State) : Out :=
  if !s.sec.fallback || s.sec.cause = 3 || !s.serving || decide (s.now < s.sec.answerAt + 125000000) then .next s
  else .next s.endFallback

/-- RESUME: fallback entered for failed authentications ends (R468). -/
def execResume (sess : Fin 2) (s : State) : Out :=
  .next (s.managed sess.val roleAdmin true (fun s =>
    if s.sec.fallback && s.sec.cause = 3 then s.endFallback.answer .ok else s.answer .ok))

/-! ### Identity (R446, R465) -/

/-- Bytes 0 to 255 of the identity report (Table 16-8a). -/
def State.identityBody (s : State) (nonce : BitVec 256) : BitVec 2048 :=
  let b (i x : Nat) : Nat := x * 2 ^ (8 * i)
  BitVec.ofNat 2048 (0x5A494431 + b 4 1 + b 5 (s.start.pos % 16) + b 6 (bitsN s.grade.toNat 0 2) + b 7 (bitsN s.build.toNat 16 8) +
    b 8 s.build.toNat + b 16 nonce.toNat + b 48 (leNat (identityPub s.sec.identity)) +
    b 145 (leNat (agreementPub s.sec.identity)))

/-- SIG_R and SIG_S of the identity report: the ECDSA signature over the digest of bytes 0 to 255, big-endian (R465). -/
def State.signature (s : State) (body : BitVec 2048) : BitVec 768 :=
  let x := ecdsa s.sec.identity (sha384 (leBytes 256 body.toNat)) s.free
  BitVec.ofNat 768 (leNat (beBytes 48 x.1 ++ beBytes 48 x.2))

/-- IDENTITY: any party may ask for the report at any time; it is signed with the identity key (R465). -/
def execIdentity (nonce : BitVec 256) (s : State) : Out :=
  let body := s.identityBody nonce
  .next ({ s with free := s.free + 1 }.answer (.report body (s.signature body)))

/-! ### Keys and anchors (R448, R449) -/

/-- KEY_SET: slots 0 to 7 of the key store; slot 15 is the fuse key, programmed once (R448, R449). -/
def execKeySet (sess : Fin 2) (slot : Fin 16) (key : BitVec 256) (s : State) : Out :=
  .next (s.managed sess.val roleKeys false (fun s =>
    if slot.val < 8 then { s with sec := { s.sec with slots := Tbl.set slot.val key s.sec.slots, lastAns := .ok } }
    else if slot.val = 15 && s.sec.fuseKey.isNone then { s with sec := { s.sec with fuseKey := some key, lastAns := .ok } }
    else s.answer .spdmError))

/-- KEY_CLEAR: the slot holds no key (R448). -/
def execKeyClear (sess : Fin 2) (slot : Fin 8) (s : State) : Out :=
  .next (s.managed sess.val roleKeys false (fun s =>
    { s with sec := { s.sec with slots := Tbl.del slot.val s.sec.slots, lastAns := .ok } }))

/-- Program an empty anchor slot (R449). -/
def State.programAnchor (s : State) (digest : BitVec 384) : State :=
  if s.sec.anchors.length < 2 then
    { s with sec := { s.sec with anchors := s.sec.anchors ++ [digest], lastAns := .ok } }
  else s.answer .spdmError

/-- ANCHOR_SET: needs no role while no anchor is programmed, then ADMIN (R449). -/
def execAnchorSet (sess : Option (Fin 2)) (digest : BitVec 384) (s : State) : Out :=
  match sess with
  | none => .next (if s.sec.anchors = [] then s.programAnchor digest else s.answer .spdmError)
  | some i =>
    .next (if s.sec.anchors = [] then (s.message i.val).programAnchor digest
      else s.managed i.val roleAdmin true (fun s => s.programAnchor digest))

/-- VBAT_KEY_LOSS: every slot is cleared (R448). -/
def execVbatKeyLoss (s : State) : Out := .next { s with sec := { s.sec with slots := [], vbatLost := true } }

/-- PROBE_SELECT: the test access port writes a probe multiplexer's select register (R364). -/
def execProbeSelect (pin : Fin 8) (sel : Byte) (s : State) : Out :=
  .next { s with sec := { s.sec with selects := Tbl.set pin.val sel s.sec.selects } }

/-- The level of PRB[n]: 0 before release stage 4 and while PROBE_EN is 0, constant 0 at select 0x00, else its source (R364, R365,
R399). Which source stands at which code the manual gives by classes only (Table 13-4): a free value. -/
def State.prb (s : State) (n : Nat) : Bool :=
  let sel := Tbl.get 0 s.sec.selects n
  s.start.st = 7 && s.sec.probeEn && sel != 0 && Config.probeSource sel s.now

/-! ### Images, shapes, restart, parcels (R368, R384, R398, R454) -/

/-- Whether a partial reload runs, from its draining on (R369, R403). -/
def State.reloading (s : State) : Bool := s.reload.st = 1 || s.reload.st = 2 || s.reload.st = 3

/-- IMAGE_WRITE: the attic image is replaced, its directory last; it waits for a reload or a parcel opening (R368, R369,
R455). An image larger than the image area cannot be written. -/
def execImageWrite (sess : Fin 2) (hdr : BitVec 2048) (segs : List Seg) (s : State) : Out :=
  .next (s.managed sess.val roleImage true (fun s =>
    if 11 * 2 ^ 20 < (imageBytes hdr segs).length then s.answer .spdmError
    else if s.reloading || s.sec.opening.isSome then
      { s with attic := { s.attic with waiting := s.attic.waiting ++ [(hdr, segs)] } }.answer .ok
    else { s with attic := s.attic.rewrite hdr segs }.answer .ok))

/-- SHAPE_LOAD: a shape-only segment is checked; its shape is held pending, or CFG_ERR records why not (R384, R387). -/
def execShapeLoad (sess : Fin 2) (hdr : BitVec 1024) (body : List Byte) (s : State) : Out :=
  let seg : Seg := { hdr := hdr, body := body }
  .next (s.managed sess.val roleAdmin false (fun s =>
    match s.checkSegment seg true (decide (segLen seg ≤ seg.body.length)) with
    | .failed c => { s with cfg := s.cfg.record c false (segField seg.hdr 40 8 = 1) }.answer (.code c)
    | .passed x => ({ s with cfg := { s.cfg with kind := true } }.holdShape x.recs).answer .ok))

/-- RESTART: in WAIT_DONE and FAILED the head die sends K30.7 and returns to POWER (R398). -/
def execRestart (sess : Fin 2) (s : State) : Out :=
  .next (s.managed sess.val roleAdmin true (fun s =>
    if (s.start.st = 5 || s.start.st = 8) && s.start.head then s.restarted.answer .ok else s.answer .spdmError))

/-- PARCEL_OPEN: one opening at a time; it waits for a reload, then its first steps run (R454, R455). A request that does not give
as many slices as it says, 1 to 64, is none of R454: it is answered with an SPDM error and has no effect (DESIGN CHOICE, log 51). -/
def execParcelOpen (sess : Fin 2) (owner : BitVec 12) (src : Word) (nslice : Nat) (slices : List Slice) (s : State) : Out :=
  .next (s.managed sess.val roleParcel false (fun s =>
    let a : OpenAsk := { owner := owner, src := src, slices := slices }
    if slices.length ≠ nslice || nslice < 1 || 64 < nslice then s.answer .spdmError
    else if s.sec.opening.isSome || s.sec.openWaits.isSome then s.parcelCode 1
    else if s.reloading then { s with sec := { s.sec with openWaits := some a } }
    else s.startOpen a))

/-- PARCEL_OPEN_DONE: the slice objects become LIVE as sealed objects in one step, or are reclaimed (R454). The operand tells whether
every byte of the source could be read. What waited begins, unless a reload that waited for the opening runs next (R369, R455). -/
def execParcelOpenDone (readOk : Bool) (s : State) : Out :=
  match s.sec.opening with
  | none => .next s
  | some o => .next (if s.reloading then s.endOpen o readOk else (s.endOpen o readOk).writeWaiting)

end Sys2Proof.Machine
end

