-- ==== Sys2Proof/Machine/Power.lean ====
section
/-! DEFINITION. Monitors, throttles, the governor and the power domains' sequences (17). -/
namespace Sys2Proof.Machine

/-! ### Regions and their neighbours (R484, R486) -/

/-- A region's monitor. -/
def State.monitor (s : State) (r : Nat) : RegionMon := Tbl.get RegionMon.fresh s.power.mon r

/-- Change a region's monitor. -/
def State.onMonitor (s : State) (r : Nat) (f : RegionMon → RegionMon) : State :=
  { s with power := { s.power with mon := Tbl.set r (f (s.monitor r)) s.power.mon } }

/-- Whether two regions are neighbours: next to each other in a row of four, or one above the other (R484). -/
def neighbours (a b : Nat) : Bool :=
  (a / 4 = b / 4 && (a + 1 = b || b + 1 = a)) || a + 4 = b || b + 4 = a

/-- The pairs of neighbouring regions that are present, the lower first. -/
def State.pairsHere (s : State) : List (Nat × Nat) :=
  (List.range 8).flatMap (fun a => (List.range 8).filterMap (fun b =>
    if a < b && neighbours a b && s.present a && s.present b then some (a, b) else none))

/-- The difference of two numbers. -/
def apart (a b : Nat) : Nat := (a - b) + (b - a)

/-! ### Neighbour evaluation (R486, R487) -/

/-- Take a region's temperature and supply. -/
def State.measure (s : State) (temps : List (BitVec 8)) (supplies : List (BitVec 10)) (r : Nat) : State :=
  if s.present r then
    s.onMonitor r (fun m => { m with temp := ((temps[r]?).map BitVec.toNat).getD m.temp
                                     supply := ((supplies[r]?).map BitVec.toNat).getD m.supply })
  else s

/-- Count the consecutive evaluations in which a pair exceeds its limits; the second in a row throttles the hotter region, or
the one at the lower supply (R486). -/
def State.evalPair (s : State) (p : Nat × Nat) : State :=
  let a := s.monitor p.1
  let b := s.monitor p.2
  let key := 8 * p.1 + p.2
  let old := Tbl.get (0, 0) s.power.pairs key
  let hot := if 20 < apart a.temp b.temp then old.1 + 1 else 0
  let low := if 50 < apart a.supply b.supply then old.2 + 1 else 0
  let s := { s with power := { s.power with pairs := Tbl.set key (satTo 2 hot, satTo 2 low) s.power.pairs } }
  let s := if 2 ≤ hot then s.onMonitor (if a.temp < b.temp then p.2 else p.1) (fun m => { m with thrPair := 1, calm := 0 }) else s
  if 2 ≤ low then s.onMonitor (if a.supply < b.supply then p.1 else p.2) (fun m => { m with thrPair := 2, calm := 0 }) else s

/-- Whether every pair of a region stands below 40 mV and 16 °C. -/
def State.calmPairs (s : State) (r : Nat) : Bool :=
  s.pairsHere.all (fun p => !(p.1 = r || p.2 = r) ||
    (apart (s.monitor p.1).temp (s.monitor p.2).temp < 16 && apart (s.monitor p.1).supply (s.monitor p.2).supply < 40))

/-- One evaluation of a region's own throttles: each ends after 100 evaluations in a row within its limits (R486, R487). -/
def State.evalRegion (s : State) (r : Nat) : State :=
  let quiet := s.calmPairs r
  s.onMonitor r (fun m =>
    let calm := if quiet then m.calm + 1 else 0
    let own := m.thrOwn || decide (95 < m.temp)
    let cool := if own && decide (m.temp ≤ 90) then m.cool + 1 else 0
    { m with thrPair := if 100 ≤ calm then 0 else m.thrPair
             calm := satTo 100 calm
             thrOwn := own && decide (cool < 100)
             cool := if 100 ≤ cool then 0 else cool })

/-- A thermal stop ends once the coolant is there and every region has stayed at or below 95 °C for 1 ms (R487). -/
def State.endThermal (s : State) : State :=
  match s.power.coolSince with
  | none => s
  | some t =>
    if s.faults.thermal && s.faults.coolOk && decide (t + 125000 ≤ s.now) then
      let s := { s with faults := { s.faults with thermal := false } }
      if s.faults.stopped then s else s.startPackage
    else s

/-- NEIGHBOUR_EVAL: once per 125 MCLK cycles (R486, R487). -/
def execNeighbourEval (temps : List (BitVec 8)) (supplies : List (BitVec 10)) (s : State) : Out :=
  if s.now < s.power.evalAt + 125 then .next s
  else
    let rs := (List.range 8).filter s.present
    let s := s.each (List.range 8) (fun s r => s.measure temps supplies r)
    let s := s.pairsHere.foldl State.evalPair s
    let s := s.each rs State.evalRegion
    let cool := rs.all (fun r => decide ((s.monitor r).temp ≤ 95))
    let since := if cool then some (s.power.coolSince.getD s.now) else none
    .next { s with power := { s.power with evalAt := s.now, coolSince := since } }.endThermal

/-- THERMAL_TRIP: a region above 110 °C, as its monitor reads too, for 250 MCLK cycles stops the package (R487). -/
def execThermalTrip (region : Fin 8) (s : State) : Out :=
  if !s.present region.val || s.faults.thermal || decide ((s.monitor region.val).temp ≤ 110) then .next s
  else
    let s := s.stopPackage
    .next { s with faults := { s.faults with thermal := true }
                   power := { s.power with trips := satTo 255 (s.power.trips + 1), coolSince := none } }

/-! ### Droop (R483, R484) -/

/-- MARGIN of a physical tile (Table 05-5). -/
def TileHw.margin (h : TileHw) : Nat := bitsN h.fmax.toNat 2 4

/-- The lowest MARGIN among a region's working tiles, the spare counting while it substitutes (R483). -/
def State.lowMargin (s : State) (r : Nat) : Nat :=
  ((clustersIn r).flatMap (fun c => s.tilesOf.map (fun t => (s.silicon (s.tileKey c t)).margin))).foldl min 15

/-- A region's period in root cycles, as its own droop makes it. -/
def State.ownPeriod (s : State) (r : Nat) : Nat := if (s.monitor r).droop then s.divider r + 2 else s.divider r

/-- Whether a region is stretched for a neighbour: half the neighbour's period, rounded up, exceeds its own (R484). -/
def State.nbrStretch (s : State) (r : Nat) : Bool :=
  (List.range 8).any (fun q => neighbours q r && s.present q && (s.monitor q).droop && decide (s.ownPeriod r < (s.ownPeriod q + 1) / 2))

/-- Every region's stretch for its neighbours (R484). -/
def State.stretchAll (s : State) : State :=
  s.each ((List.range 8).filter s.present) (fun t r => t.onMonitor r (fun m => { m with nbr := s.nbrStretch r }))

/-- DROOP_TRIP: the supply falls more than 30 + 2 × M mV below 750 mV, and the region's ACLK is stretched (R483). -/
def execDroopTrip (region : Fin 8) (supply : BitVec 10) (s : State) : Out :=
  let r := region.val
  if !s.present r || decide (750 ≤ supply.toNat + 30 + 2 * s.lowMargin r) || (s.monitor r).droop then .next s
  else .next (s.onMonitor r (fun m => { m with droop := true, supply := supply.toNat, trips := satTo 255 (m.trips + 1) })).stretchAll

/-- DROOP_END: the stretch ends 64 cycles after the supply recovers (R483). -/
def execDroopEnd (region : Fin 8) (s : State) : Out :=
  if !s.present region.val then .next s
  else .next (s.onMonitor region.val (fun m => { m with droop := false })).stretchAll

/-! ### Governor and power readings (R488, R489, R461, R492) -/

/-- The effective cap of the die in W (R488). -/
def State.capEff (s : State) : Nat :=
  let c := min (bitsN s.hard.powerCfg.toNat 0 8) (bitsN s.grade.toNat 16 8)
  if bitN s.hard.powerCfg.toNat 8 then c else min c 60

/-- One window of the governor (R489): cap step and calm windows. -/
def govern (step calm mw cap : Nat) : Nat × Nat :=
  if cap < mw then (if step < 4 then step + 1 else step, 0)
  else if mw < cap / 10 * 9 then
    (if 10 ≤ calm + 1 && 0 < step then (step - 1, 0) else (step, calm + 1))
  else (step, 0)

/-- GOVERNOR_WINDOW: each 125,000 MCLK cycles (R489). -/
def execGovernorWindow (milliwatts : BitVec 20) (s : State) : Out :=
  if s.now < s.power.govAt + 125000 then .next s
  else
    let r := govern s.power.capStep s.power.calm milliwatts.toNat (s.capEff * 1000)
    .next { s with power := { s.power with capStep := r.1, calm := r.2, govAt := s.now } }

/-- POWER_WINDOW: each 10 ms the mean power is reported to the nearest 0.5 W (R461, R492). -/
def execPowerWindow (milliwatts : BitVec 20) (s : State) : Out :=
  if s.now < s.power.windowAt + 1250000 then .next s
  else .next { s with power := { s.power with power := satTo 511 ((milliwatts.toNat + 250) / 500), windowAt := s.now } }

/-! ### Domains (R476 to R482) -/

/-- Empty a physical tile: shelf, queues and registers. -/
def State.emptyTile (s : State) (key : Nat) : State :=
  { s with mem := memClear (shelfAt key 0) (shelfAt (key + 1) 0) s.mem
           tiles := Tbl.del key s.tiles
           hw := Tbl.set key { TileHw.fresh with fmax := (s.silicon key).fmax } s.hw }

/-- The contents of a domain are gone: lost by a fall, zeroed by a rise (R477). -/
def State.emptyDomain (s : State) (d : Nat) : State :=
  let c := domainCluster d
  if d < 128 then s.each [0, 1, 2, 3] (fun s i => s.emptyTile (c * 17 + 4 * (d % 4) + i))
  else if d < 160 then s.emptyTile (c * 17 + 16)
  else if d < 192 then
    { s.onCluster c (fun x => { Cluster.fresh with spare := if x.spare.fused then x.spare else Cluster.fresh.spare }) with
      mem := memClear (larderAt c 0) (larderAt c 0 + 2 ^ 24) s.mem }
  else s

/-- RESULT turns from PENDING to DONE when the domain is where the last request wants it, no sequence running (R481, R482). -/
def State.settleCtl (s : State) : State :=
  let x := s.domain s.power.ctlFor
  if s.power.ctlResult = 1 && x.want.isNone && x.st = (if s.power.ctlOn then 2 else 0) then
    { s with power := { s.power with ctlResult := 2 } }
  else s

/-- DOMAIN_SEQ_DONE: a rise or fall has taken its time; the domain is ON or OFF, and what waited for it goes on (R477, R478,
R481). -/
def execDomainSeqDone (domain : BitVec 8) (s : State) : Out :=
  let d := domain.toNat
  let x := s.domain d
  if x.st = 1 && decide (x.at_ + risingTime d ≤ s.now) then
    let s := s.emptyDomain d
    .next ((s.setDomain d { x with st := 2 }).advanceDomains).settleCtl
  else if x.st = 3 && decide (x.at_ + 64 ≤ s.now) then
    let s := s.emptyDomain d
    .next ((s.setDomain d { x with st := 0 }).advanceDomains).settleCtl
  else .next s

/-- Whether DOMAIN_CTL refuses a request (R482). -/
def State.refusesDomain (s : State) (d : Nat) (up : Bool) : Bool :=
  192 ≤ d || (128 ≤ d && d < 160) || !s.domainBuilt d || !s.present (domainCluster d / 4) || (!up && s.active (domainCluster d))

/-- A request of DOMAIN_CTL (R481, R482): a rise first raises what the domain rests on, a fall of a cluster shell first lowers
its quads and spare; the spare follows its shell (R141). -/
def State.requestDomain (s : State) (d : Nat) (up : Bool) : State :=
  let s := { s with power := { s.power with ctlDomain := d, ctlFor := d, ctlOn := up } }
  if s.refusesDomain d up then { s with power := { s.power with ctlResult := 3 } }
  else
    let c := domainCluster d
    let ds := if up then (160 + c) :: (128 + c) :: (if d < 128 then [d] else [])
      else if d < 128 then [d] else s.clusterDomains c
    let s := s.each ds (fun s e => s.setDomain e { s.domain e with held := up })
    { s.askDomains ds up with power := { (s.askDomains ds up).power with ctlResult := 1 } }.settleCtl

end Sys2Proof.Machine
end

