-- ==== Sys2Proof/Machine/Links.lean ====
section
/-! DEFINITION. Messages from other dies, and the span and seam that carry them (18). -/
namespace Sys2Proof.Machine

/-! ### Requests served for other dies (R251, R500) -/

/-- Serve granules of the cellar for another die: they enter the remote class of their ports (R251). -/
def State.serveCellar (s : State) (die tag : Nat) (addrs : List Nat) (wr : Bool) (data : BitVec 1024) : State :=
  let r : Served := { die := die, tag := tag, write := wr, need := addrs.length, got := 0, err := 0, data := if wr then data else 0 }
  let s := { s with served := s.served ++ [r] }
  ((List.range addrs.length).zip addrs).foldl (fun s p =>
    s.enqueue { addr := p.2, src := .other die tag p.1, cls := 2, wr := if wr then some (data.extractLsb' (512 * p.1) 512) else none }) s

/-- The granules that a cellar message names. -/
def cellarGranules (addr : BitVec 42) (two : Bool) : List Nat :=
  (addr.toNat * 64) :: (if two then [addr.toNat * 64 + 64] else [])

/-- CREAD: a cellar read for another die (R500, R502). -/
def execCread (src : Fin 16) (tag : BitVec 10) (addr : BitVec 42) (two : Bool) (s : State) : Out :=
  .next (s.serveCellar src.val tag.toNat (cellarGranules addr two) false 0)

/-- CWRITE: a cellar write for another die (R500, R502). -/
def execCwrite (src : Fin 16) (tag : BitVec 10) (addr : BitVec 42) (two : Bool) (data : BitVec 1024) (s : State) : Out :=
  .next (s.serveCellar src.val tag.toNat (cellarGranules addr two) true data)

/-- Where the granules of an object message lie; none for one beyond the object's end. -/
def State.objGranules (s : State) (slot : Nat) (ver : Bool) (off : Nat) (two : Bool) : List (Option Target) :=
  let o := s.obj slot
  (off * 64 :: (if two then [off * 64 + 64] else [])).map (fun b =>
    if o.size ≤ b then none else some (s.objByte o (ver && o.committed) b))

/-- Whether an object holds storage that a message may name. -/
def State.objHere (s : State) (slot : Nat) : Bool := (s.obj slot).stored && (s.obj slot).st ≠ .reclaim

/-- One granule of a local object for another die: it is read or written at once. -/
def State.serveLocal (s : State) (tg : Option Target) (half : Nat) (wr : Option (BitVec 1024)) : Nat × State :=
  match tg.bind Target.flat with
  | none => (0, s)
  | some a =>
    match wr with
    | none => (memNat s.mem a 64 * 2 ^ (512 * half), s)
    | some d => (0, s.putNat a 64 (d.extractLsb' (512 * half) 512).toNat)

/-- Serve an object message: shelf and larder granules at once, cellar granules through the ports; an object that is not there
is answered as code 3. -/
def State.serveObject (s : State) (die tag slot : Nat) (ver : Bool) (off : Nat) (two : Bool) (wr : Option (BitVec 1024)) : State :=
  let reply (s : State) (err : Nat) (d : Nat) : State :=
    s.send die (match wr with
      | some _ => .wack tag err
      | none => .rdata tag err (BitVec.ofNat 1024 d))
  if !s.objHere slot then reply s 3 0
  else
    let gs := s.objGranules slot ver off two
    if (s.obj slot).tier = 2 then
      let addrs := gs.filterMap (fun g => match g with
        | some (.cellar a) => some a
        | _ => none)
      if addrs = [] then reply s 0 0 else s.serveCellar die tag addrs wr.isSome (wr.getD 0)
    else
      let r := ((List.range gs.length).zip gs).foldl (fun (p : Nat × State) g =>
        let q := p.2.serveLocal g.2 g.1 wr
        (p.1 + q.1, q.2)) (0, s)
      reply r.2 0 r.1

/-- OREAD: an object read for another die (R500). -/
def execOread (src : Fin 16) (tag : BitVec 10) (ver : Bool) (slot : BitVec 16) (off : BitVec 26) (two : Bool) (s : State) : Out :=
  .next (s.serveObject src.val tag.toNat slot.toNat ver off.toNat two none)

/-- OWRITE: an object write for another die (R500). -/
def execOwrite (src : Fin 16) (tag : BitVec 10) (ver : Bool) (slot : BitVec 16) (off : BitVec 26) (two : Bool) (data : BitVec 1024)
    (s : State) : Out :=
  .next (s.serveObject src.val tag.toNat slot.toNat ver off.toNat two (some data))

/-! ### Responses to this die's requests (R349, R500) -/

/-- The address that a failed access to another die is recorded under: the cellar address which that die gives to the object's
bytes (R296, R349). The messages of Table 18-2 do not carry it, so it is a free value, the same for the same bytes (log 17). -/
def Access.farAddr (a : Access) : Nat :=
  match a.rd, a.wr with
  | some (.remote d i v off _), _ => (Config.cellarOf d i v (off / 64)).toNat
  | none, some (.remote d i v off _) => (Config.cellarOf d i v (off / 64)).toNat
  | _, _ => 0

/-- A response matches an outstanding request by die and tag: data and errors reach its access; an error of code 2 or 3 is a
fault of its run (R349). A response to no request is discarded. -/
def State.remoteAnswer (s : State) (die tag err : Nat) (data : Option (BitVec 1024)) : State :=
  match s.linkReqs.find? (fun r => r.die = die && r.tag = tag) with
  | none => s
  | some r =>
    let s := { s with linkReqs := s.linkReqs.filter (fun q => !(q.die = die && q.tag = tag)) }
    let addr := (((Tbl.get Tile.fresh s.tiles r.tile).acc? r.acc).map Access.farAddr).getD 0
    let s := if err < 2 then s else s.clusterFault (r.tile / 17) 8 addr
    let s := s.onAcc r.tile r.acc (fun a => { a with have_ := a.have_ + 1, data := if err < 2 then data.getD a.data else a.data })
    s.settleAcc r.tile r.acc

/-- RDATA (R500). -/
def execRdata (src : Fin 16) (tag : BitVec 10) (err : BitVec 2) (data : BitVec 1024) (s : State) : Out :=
  .next (s.remoteAnswer src.val tag.toNat err.toNat (some data))

/-- WACK (R500). -/
def execWack (src : Fin 16) (tag : BitVec 10) (err : BitVec 2) (s : State) : Out :=
  .next (s.remoteAnswer src.val tag.toNat err.toNat none)

/-! ### Control messages (R226 to R239, R294, R310) -/

/-- The four words of a message as MAIL carries it (Table 08-2). -/
def Msg.ofWords (m : BitVec 128) : Msg :=
  { src := bitsN m.toNat 0 12, w1 := m.extractLsb' 32 32, w2 := m.extractLsb' 64 32, w3 := m.extractLsb' 96 32, avail := false }

/-- MAIL: a message of another die asks for an entry of the mailbox of the cluster it is for, enters it as soon as one is free,
and its sender is told; a message of a stopped run is discarded (R226, R228). With `reserved` it is that answer, and the sender's
sequencer goes on (log 37). -/
def execMail (src : Fin 16) (task : Nat) (rel : BitVec 12) (msg : MailBody) (s : State) : Out :=
  if msg.reserved then
    .next (match s.clusterOf task rel.toNat with
      | none => s
      | some c => s.onCluster c (fun x => { x with posted := if x.posted = 1 then 2 else x.posted }))
  else if ((s.task? task).map (fun t => decide (t.life = .running))).getD true then
    .next (s.takeLetter { die := src.val, task := task, rel := rel.toNat, m := Msg.ofWords msg.words })
  else .next s

/-- The tasks that follow a task early are released where that task has now ended everywhere (R291). -/
def State.tryFollowers (s : State) (k : Nat) : State :=
  s.tasks.foldl (fun s p => if p.2.after = some k then s.tryStaged p.1 else s) s

/-- ARRIVE: a die's report reaches the barrier master, with the bindings made there; the master tells the others when the task
has ended everywhere (R235, R238, R258; log 37). -/
def execArrive (src : Fin 16) (task : Nat) (epoch : Nat) (body : ArriveBody) (s : State) : Out :=
  match s.task? task with
  | none => .next s
  | some t =>
    if t.life ≠ .running then .next s
    else
      let t := (t.report src.val epoch body.ended).learn body.binds []
      let s := s.setTask task t
      .next (if t.master = s.die then s.tellEnded t else s.tryFollowers task)

/-- RELEASE: a full stop's release reaches this die, which lets its clusters go and forwards it; the bindings made before it hold
from now on (R237, R239, R258). -/
def execRelease (_src : Fin 16) (task : Nat) (body : ReleaseBody) (s : State) : Out :=
  match s.task? task with
  | none => .next s
  | some t =>
    if t.life ≠ .running || body.epoch ≠ t.stops + 1 then .next s
    else
      let t := t.learn body.binds []
      .next ((((s.setTask task t).passStop task body.epoch).forward t body.epoch).reportArrivals task)

/-- What an abort told by another die may have been for: the message names no cause, so a free value decides (log 20). -/
def State.toldCause (s : State) : EndCause :=
  match (Config.freeWord s.free).toNat % 3 with
  | 0 => .fault 0 0 0 31
  | 1 => .nan
  | _ => .budget

/-- A start message of a task that waits here is discarded: its run is aborted before it began. -/
def State.dropStart (s : State) (k : Nat) : State :=
  { s with starts := s.starts.filter (fun m => taskKey m.1 m.2.seq ≠ k), mails := s.mails.filter (fun l => l.task ≠ k) }

/-- ABORT: a run stops on this die too (R294); where it does not run here, the task's die is told that nothing of it is left. With
`drained` it is that answer: the run has drained on the die that sends it (R295; log 20). -/
def execAbort (src : Fin 16) (body : AbortBody) (s : State) : Out :=
  let task := body.task
  if body.drained then
    .next (s.onTask task (fun t => { t with drains := src.val :: t.drains.filter (fun d => d ≠ src.val) }))
  else
    match s.task? task with
    | none => .next ((s.dropStart task).send (task / 2 ^ 32) (.abort task true))
    | some t =>
      if t.life = .running then
        let cause : EndCause := if t.die = s.die then s.toldCause else .followOn
        let s := { s with free := s.free + 1 }.stopRun task t cause
        .next (((s.followers s.tasks.length [task]).drop 1).foldl (fun s f => s.abortOne f .followOn) s)
      else if t.die ≠ s.die && (t.life = .held || t.life = .copying) then
        .next ((s.dropStart task).send t.die (.abort task true))
      else .next s

/-- FENCE: a fence of this die is raised, or poisoned where bit 63 is set; the sequence it then names is free (R310, R500). -/
def execFence (_src : Fin 16) (handle : Word) (val : BitVec 64) (s : State) : Out :=
  match s.live handle none with
  | none => .next s
  | some i =>
    if !(s.obj i).fence then .next s
    else if val.getLsbD 63 then .next (s.poisonFence i)
    else
      let (q, s) := s.freeWord
      .next (s.raiseFence i val.toNat q)

/-! ### Routes (R439, R499, R512) -/

/-- Links 0 and 1 are the span ports, link 2 the seam. Whether a request to a die goes by a link. -/
def State.goesBy (s : State) (link die : Nat) : Bool :=
  if link = 2 then die / 2 = s.die / 2 else die / 2 ≠ s.die / 2 && s.portTo die = some link

/-- Runs whose requests wait for a link are aborted as class 10, their requests discarded; the runs are counted (R512). -/
def State.dropWaiting (s : State) (link : Nat) : State :=
  let hit := s.linkReqs.filter (fun r => s.goesBy link r.die)
  let ks := (hit.filterMap (fun r => (s.cluster (r.tile / 17)).task)).eraseDups
  let s := { s with linkReqs := s.linkReqs.filter (fun r => !s.goesBy link r.die) }
  let s := hit.foldl (fun s r => s.onAcc r.tile r.acc (fun a => { a with have_ := a.have_ + 1 })) s
  let s := if link = 2 then { s with seam := { s.seam with aborts := satTo 255 (s.seam.aborts + ks.length), rerouted := true } }
    else s.onSpan link (fun p => { p with aborts := satTo 255 (p.aborts + ks.length), rerouted := true })
  let s := ks.foldl (fun s k => s.abortRun k (.fault 10 0 0 31)) s
  hit.foldl (fun s r => s.settleAcc r.tile r.acc) s

/-- Whether some link of this die is not lost. -/
def State.anyRoute (s : State) : Bool :=
  (s.hasSeam && s.seam.st ≠ 3) || (s.spans = 2 && (s.spanOf 0).st ≠ 7) || (1 ≤ s.spans && (s.spanOf 1).st ≠ 7)

/-- The other dies that this die knows of. -/
def State.knownDies (s : State) : List Nat := ((s.peers.map (fun p => p.1 / 8)).filter (fun d => d ≠ s.die)).eraseDups

/-- A link is lost; with the last one every other die is (R439, R512). -/
def State.loseLink (s : State) (link : Nat) : State :=
  let s := s.dropWaiting link
  let s := if link = 2 then { s with seam := { s.seam with st := 3 } } else s.onSpan link (fun p => { p with st := 7 })
  if s.anyRoute then s else s.knownDies.foldl State.loseDie s

/-- What the other dies hold of each partition, where this die has not been told yet: free values (log 21). -/
def State.learnPeers (s : State) (dies : List Nat) : State :=
  let keys := ((dies.filter (fun d => d ≠ s.die)).flatMap (fun d => (List.range 8).map (fun p => 8 * d + p))).filter (fun k =>
    (Tbl.find k s.peers).isNone)
  { s with peers := keys.foldl (fun t k => Tbl.set k ((Config.freeWord (s.free + k)).toNat % 33) t) s.peers
           free := s.free + 128 }

/-- LINK_CFG: RETRAIN_LIMIT in MCLK cycles (Table 18-9). -/
def State.retrainLimit (s : State) : Nat := 12500 * max 1 (bitsN s.hard.link.toNat 0 8)
/-- LINK_CFG: LOST_MS in MCLK cycles. -/
def State.lostAfter (s : State) : Nat := 125000 * max 1 (bitsN s.hard.link.toNat 8 8)
/-- LINK_CFG: REPLAY_MAX. -/
def State.replayMax (s : State) : Nat := max 1 (bitsN s.hard.link.toNat 16 4)

/-- Whether a span port is in the build (R497). -/
def State.hasSpan (s : State) (p : Nat) : Bool := s.spans = 2 || (s.spans = 1 && p = 1)

/-! ### The span (R506 to R512) -/

/-- The link enters RETRAIN; the replay buffer stays (Table 18-5). -/
def State.retrainSpan (s : State) (p : Nat) : State :=
  s.onSpan p (fun x => { x with st := 6, retrain := satTo 255 (x.retrain + 1), enterAt := s.now, stateAt := s.now, rerouted := false, tries := 0 })

/-- Frames that the peer has received in order leave the replay buffer; progress starts the count of replays anew (R509). -/
def Span.acked (x : Span) (ack : Nat) : Span :=
  match x.replays.findIdx? (fun n => n = ack) with
  | none => x
  | some i => { x with replays := x.replays.drop (i + 1), ackSeq := ack, tries := 0 }

/-- The sender replays from the oldest unacknowledged frame; REPLAY_MAX replays of one frame retrain the link (R509). -/
def State.replaySpan (s : State) (p : Nat) : State :=
  if (s.spanOf p).replays = [] then s
  else
    let s := s.onSpan p (fun x => { x with replay := satTo 65535 (x.replay + 1), tries := x.tries + 1 })
    if s.replayMax ≤ (s.spanOf p).tries then s.retrainSpan p else s

/-- Whether a message header names a type of Table 18-2 and a class of Table 18-1. -/
def headOk (h : BitVec 64) : Bool :=
  let t := bitsN h.toNat 0 4
  ((1 ≤ t && t ≤ 6) || (8 ≤ t && t ≤ 13)) && bitsN h.toNat 9 2 != 3

/-- SPAN_FRAME_RECEIVE: frames are taken in SEQ order; a bad CRC or another SEQ is discarded with one NACK; a tag that fails
retrains the link, the fourth time loses it (R509, R510). Of the messages in a frame that is taken, those whose header is reserved are
discarded and counted (R500); each of the others is a command of its own row. -/
def execSpanFrameReceive (port : Fin 2) (check : FrameCheck) (heads : List (BitVec 64)) (seq ack : BitVec 12) (s : State) : Out :=
  let p := port.val
  let x := s.spanOf p
  if !s.hasSpan p || x.st ≠ 5 then .next s
  else
    match check with
    | .badCrc => .next (s.onSpan p (fun x => { x with crcErr := satTo 255 (x.crcErr + 1), nacked := true }))
    | .badTag =>
      let s := s.onSpan p (fun x => { x with auth := satTo 15 (x.auth + 1) })
      .next (if 4 ≤ (s.spanOf p).auth then s.loseLink p else s.retrainSpan p)
    | .good =>
      if seq.toNat ≠ x.expSeq then .next (s.onSpan p (fun x => { x with nacked := true }))
      else
        let bad := (heads.filter (fun h => !headOk h)).length
        .next (s.onSpan p (fun x => { x.acked ack.toNat with
          expSeq := (x.expSeq + 1) % 4096, nacked := false, format := satTo 255 (x.format + bad) }))

/-- SPAN_NACK: it names the SEQ that the peer expects; what stands before it has arrived, and the rest is replayed (R509). -/
def execSpanNack (port : Fin 2) (seq : BitVec 12) (s : State) : Out :=
  let p := port.val
  if !s.hasSpan p || (s.spanOf p).st ≠ 5 then .next s
  else .next ((s.onSpan p (fun x => x.acked ((seq.toNat + 4095) % 4096))).replaySpan p)

/-- SPAN_REPLAY_TIMEOUT: ACK has not advanced for 4 µs and the round trip (R509). -/
def execSpanReplayTimeout (port : Fin 2) (s : State) : Out :=
  if !s.hasSpan port.val || (s.spanOf port.val).st ≠ 5 then .next s else .next (s.replaySpan port.val)

/-- The die that R496 wires to a span port. -/
def State.wiredTo (s : State) (p : Nat) : Nat :=
  let n := s.cfg.npkg
  let pkg := s.die / 2
  2 * (if p = 1 then (pkg + 1) % n else (pkg + n - 1) % n) + s.die % 2

/-- Whether a span port carries the link between the last package and package 0 (R496, R498). -/
def State.closesRing (s : State) (p : Nat) : Bool :=
  s.spans = 2 && (if p = 1 then s.die / 2 + 1 = s.cfg.npkg else s.die / 2 = 0)

/-- Cause of a failed identification, 0 where it passes (R498, Table 18-7). -/
def State.identityFault (s : State) (p peer npkg family sig : Nat) : Nat :=
  if peer ≠ s.wiredTo p then 3
  else if family ≠ bitsN s.build.toNat 24 8 || sig ≠ bitsN s.build.toNat 0 12 then 4
  else if npkg ≠ s.cfg.npkg then 2
  else 0

/-- The port is back in WAKE with a cause (R511). -/
def State.wakeSpan (s : State) (p cause : Nat) : State := s.onSpan p (fun x => { x with st := 1, cause := cause, stateAt := s.now })

/-- A span port is ACTIVE: the ring is known where this link closes it, and the other packages' dies are in reach: one in each
package, two in a build with a seam (R16, R498). -/
def State.activateSpan (s : State) (p : Nat) : State :=
  let s := s.onSpan p (fun x => { x with st := 5, tries := 0, nacked := false, rerouted := false })
  let s := if s.closesRing p then [0, 1].foldl (fun s q => s.onSpan q (fun x => { x with ring := true })) s else s
  s.learnPeers ((List.range 16).filter (fun d => d / 2 ≠ s.die / 2 && d / 2 < s.cfg.npkg && (s.hasSeam || d % 2 = 0)))

/-- SPAN_TRAIN_STEP: a training state has done its work; IDENTIFY checks the peer, KEYS its keys; a check that fails returns
the port to WAKE (R450, R498, R511). -/
def execSpanTrainStep (port : Fin 2) (peer : Fin 16) (npkg : BitVec 4) (family : Byte) (sig : BitVec 12) (keysOk : Bool)
    (lat : BitVec 16) (s : State) : Out :=
  let p := port.val
  if !s.hasSpan p then .next s
  else
    match (s.spanOf p).st with
    | 1 => .next (s.onSpan p (fun x => { x with st := 2, stateAt := s.now }))
    | 2 => .next (s.onSpan p (fun x => { x with st := 3, stateAt := s.now }))
    | 3 =>
      let c := s.identityFault p peer.val npkg.toNat family.toNat sig.toNat
      if c ≠ 0 then .next (s.wakeSpan p c)
      else .next (s.onSpan p (fun x => { x with st := 4, peer := peer.val, lat := lat.toNat, stateAt := s.now }))
    | 4 => if keysOk then .next (s.activateSpan p) else .next (s.wakeSpan p 5)
    | 6 => .next (s.onSpan p (fun x => { x with st := 1, stateAt := s.now }))
    | _ => .next s

/-- Limit of a training state in MCLK cycles (Table 18-5). -/
def spanLimit (st : Nat) : Option Nat :=
  match st with
  | 1 => some 12500
  | 2 => some 6250
  | 3 => some 1250
  | 4 => some 62500
  | _ => none

/-- SPAN_STATE_TIMEOUT: a training state has exceeded its limit: lock in WAKE and ALIGN, the limit elsewhere (R511, Table
18-7). -/
def execSpanStateTimeout (port : Fin 2) (s : State) : Out :=
  let x := s.spanOf port.val
  match spanLimit x.st with
  | none => .next s
  | some n =>
    if s.now ≤ x.stateAt + n then .next s
    else .next (s.wakeSpan port.val (if x.st = 1 || x.st = 2 then 1 else 6))

/-- Whether a link that was active is training again, and since when. -/
def State.retrainingSince (s : State) (link : Nat) : Option Nat :=
  if link = 2 then (if s.seam.st = 2 then some s.seam.enterAt else none)
  else
    let x := s.spanOf link
    if s.hasSpan link && x.retrain ≠ 0 && x.st ≠ 0 && x.st ≠ 5 && x.st ≠ 7 then some x.enterAt else none

/-- RETRAIN_LIMIT_EXPIRE: the runs that wait for the link are aborted as class 10, and traffic takes another route (R512). -/
def execRetrainLimitExpire (link : Fin 3) (s : State) : Out :=
  let done := if link.val = 2 then s.seam.rerouted else (s.spanOf link.val).rerouted
  match s.retrainingSince link.val with
  | none => .next s
  | some t => if done || decide (s.now < t + s.retrainLimit) then .next s else .next (s.dropWaiting link.val)

/-- Whether a link is not ACTIVE, and since when: since RETRAIN, or since stage 3 (R512). -/
def State.downSince (s : State) (link : Nat) : Option Nat :=
  if s.start.st ≠ 7 && !(s.start.st = 6 && 3 ≤ s.start.stage) then none
  else if link = 2 then (if s.hasSeam && (s.seam.st = 0 || s.seam.st = 2) then some s.seam.enterAt else none)
  else
    let x := s.spanOf link
    if s.hasSpan link && x.st ≠ 0 && x.st ≠ 5 && x.st ≠ 7 then some x.enterAt else none

/-- LINK_LOST: a link not ACTIVE within LOST_MS is lost (R512). -/
def execLinkLost (link : Fin 3) (s : State) : Out :=
  match s.downSince link.val with
  | none => .next s
  | some t => if s.now < t + s.lostAfter then .next s else .next (s.loseLink link.val)

/-! ### The seam (R503 to R505) -/

/-- SEAM_RETRAIN: the seam leaves its active state; its traffic is held (R505). -/
def execSeamRetrain (s : State) : Out :=
  if !s.hasSeam || s.seam.st ≠ 1 then .next s
  else .next { s with seam := { s.seam with st := 2, retrain := satTo 255 (s.seam.retrain + 1), enterAt := s.now, rerouted := false } }

/-- Whether release has come to stage 3, from which the links train (R401). -/
def State.linksUp (s : State) : Bool := s.start.st = 7 || (s.start.st = 6 && decide (3 ≤ s.start.stage))

/-- SEAM_ACTIVE: training or retraining completes, and held traffic goes on (R505); training begins with stage 3 (R401). -/
def execSeamActive (s : State) : Out :=
  if !s.hasSeam || !s.linksUp || !(s.seam.st = 0 || s.seam.st = 2) then .next s
  else
    let s := { s with seam := { s.seam with st := 1, rerouted := false } }
    .next (s.learnPeers [s.die / 2 * 2 + (1 - s.die % 2)])

end Sys2Proof.Machine
end

