-- ==== Sys2Proof/Machine/ControlSpace.lean ====
section
/-! DEFINITION. The control space: decode, readers, writers, and every register of Tables 19-5 and 19-6 (19). -/
namespace Sys2Proof.Machine

/-! ### The register map (R529) -/

/-- The die-global registers (Table 19-5). -/
inductive DieReg where
  | build | grade | shapeStatus | ctlErr | bcastSkip | groupMask | cfgErr | cfgInfo | startStatus | reload | scrubStatus
  | commitStatus | waitscan | storeRoomFree | frontCfg | frontStatus | portTimeout | cellarStatus | faultStatus
  | coolantStatus | capacity | faultLog | secStatus | mgmtStatus | parcelStatus | probeCtl | clkStatus | regionMon
  | domainCtl | powerStatus | domainState | spanStatus | seamStatus | report | qstream | queueState | serdesCfg | linkCfg
  | powerCfg | fallbackCfg | scrubCfg | ctxStall | ctxStreamFault | ctxTrap | ctxState | masterCfg | ctxEnergy | ctxCount
deriving DecidableEq, Repr

/-- A row of the map: `count` registers of `words` words each, the first at `base`, `stride` bytes apart. -/
structure MapRow where
  reg : DieReg
  base : Nat
  stride : Nat
  count : Nat
  words : Nat
deriving DecidableEq, Repr

/-- Table 19-5, with the layouts of the defining rules. -/
def dieMap : List MapRow := [
  ⟨.build, 0x0000, 4, 1, 1⟩, ⟨.grade, 0x0004, 4, 1, 1⟩, ⟨.shapeStatus, 0x0100, 4, 1, 1⟩, ⟨.ctlErr, 0x0110, 4, 5, 1⟩,
  ⟨.bcastSkip, 0x0130, 4, 1, 1⟩, ⟨.groupMask, 0x0180, 4, 16, 1⟩, ⟨.cfgErr, 0x0200, 4, 1, 1⟩, ⟨.cfgInfo, 0x0204, 4, 1, 1⟩,
  ⟨.startStatus, 0x0208, 4, 1, 1⟩, ⟨.reload, 0x0210, 4, 1, 1⟩, ⟨.scrubStatus, 0x0220, 12, 1, 3⟩,
  ⟨.commitStatus, 0x0280, 4, 1, 1⟩, ⟨.waitscan, 0x0290, 8, 1, 2⟩, ⟨.storeRoomFree, 0x0300, 16, 8, 3⟩,
  ⟨.frontCfg, 0x0400, 16, 4, 1⟩, ⟨.frontStatus, 0x0404, 16, 4, 2⟩, ⟨.portTimeout, 0x0480, 4, 1, 1⟩,
  ⟨.cellarStatus, 0x0500, 8, 16, 2⟩, ⟨.faultStatus, 0x0600, 8, 1, 2⟩, ⟨.coolantStatus, 0x0640, 4, 1, 1⟩,
  ⟨.capacity, 0x0680, 4, 1, 1⟩, ⟨.faultLog, 0x0700, 16, 16, 4⟩, ⟨.secStatus, 0x0800, 4, 1, 1⟩,
  ⟨.mgmtStatus, 0x0804, 4, 1, 1⟩, ⟨.parcelStatus, 0x0810, 12, 1, 3⟩, ⟨.probeCtl, 0x0820, 4, 1, 1⟩,
  ⟨.clkStatus, 0x0900, 4, 1, 1⟩, ⟨.regionMon, 0x0910, 4, 8, 1⟩, ⟨.domainCtl, 0x0940, 4, 1, 1⟩,
  ⟨.powerStatus, 0x0950, 4, 1, 1⟩, ⟨.domainState, 0x0980, 4, 13, 1⟩, ⟨.spanStatus, 0x0A00, 16, 4, 3⟩,
  ⟨.seamStatus, 0x0A40, 4, 1, 1⟩, ⟨.report, 0x1000, 8, 256, 2⟩, ⟨.qstream, 0x4000, 8, 1024, 2⟩,
  ⟨.queueState, 0x6000, 8, 1024, 2⟩, ⟨.serdesCfg, 0x8000, 4, 9, 1⟩, ⟨.linkCfg, 0x9800, 4, 1, 1⟩,
  ⟨.powerCfg, 0x9A00, 4, 1, 1⟩, ⟨.fallbackCfg, 0x9C00, 4, 1, 1⟩, ⟨.scrubCfg, 0x9E00, 4, 1, 1⟩,
  ⟨.ctxStall, 0x400000, 8, 131072, 2⟩, ⟨.ctxStreamFault, 0x500000, 16, 4096, 4⟩, ⟨.ctxTrap, 0x520000, 16, 4096, 4⟩,
  ⟨.ctxState, 0x530000, 4, 4096, 1⟩, ⟨.masterCfg, 0x540000, 4, 4096, 1⟩, ⟨.ctxEnergy, 0x550000, 8, 4096, 2⟩,
  ⟨.ctxCount, 0x560000, 8, 4096, 2⟩]

/-- The index and the word that a row gives an offset, if a register word of the row lies there. -/
def MapRow.hit (m : MapRow) (off : Nat) : Option (Nat × Nat) :=
  let d := off - m.base
  if m.base ≤ off && d / m.stride < m.count && d % m.stride / 4 < m.words then some (d / m.stride, d % m.stride / 4) else none

/-- The register word at a die-global offset: register, index, word; none where the offset is reserved (R523). -/
def dieRegAt (off : Nat) : Option (DieReg × Nat × Nat) :=
  dieMap.findSome? (fun m => (m.hit off).map (fun h => (m.reg, h.1, h.2)))

/-- The tile and cluster registers (Table 19-6), each word its own. -/
inductive LocalReg where
  | tileFmax | tileHealth | tileHealthClear | clauseErr | clauseErrAt | tileRun | tileRunExempt | spareMap | seqStatus
  | seqErr | mboxStatus | extStatus
deriving DecidableEq, Repr

/-- The register word at an offset of a tile field (R518, Table 19-6). -/
def localRegAt (field off : Nat) : Option LocalReg :=
  if field ≤ 16 || field = 30 then
    match off with
    | 0x10 => some .tileFmax
    | 0x20 => some .tileHealth
    | 0x24 => some .tileHealthClear
    | 0x60 => some .clauseErr
    | 0x64 => some .clauseErrAt
    | 0x70 => some .tileRun
    | 0x74 => some .tileRunExempt
    | _ => none
  else if field = 31 then
    match off with
    | 0x40 => some .spareMap
    | 0x80 => some .seqStatus
    | 0x84 => some .seqErr
    | 0x88 => some .mboxStatus
    | 0xC0 => some .extStatus
    | _ => none
  else none

/-! ### Values -/

/-- A register word from its fields: lowest bit, width, value. -/
def pack : List (Nat × Nat × Nat) → Nat
  | [] => 0
  | (lo, w, v) :: r => v % 2 ^ w * 2 ^ lo + pack r

/-- A field whose 0 reads as 1. -/
def zeroAsOne (x : Nat) : Nat := if x = 0 then 1 else x

/-- Free granules of a tier of a partition, summed over its clusters for shelf and larder (R271). -/
def State.storeRoomFree (s : State) (p tier : Nat) : Nat :=
  if !s.partPresent p then 0
  else
    let room := s.room p tier
    let n := if tier = 2 then freeGranules room (s.taken 2 0)
      else (((List.range 32).filter (fun c => s.active c && s.shape.part c = p)).map
        (fun c => freeGranules room (s.taken tier c))).sum
    satTo (2 ^ 28 - 1) n

/-- Code of a context state (Table 11-11). -/
def CtxSt.code : CtxSt → Nat
  | .free => 0
  | .live => 1
  | .draining => 2
  | .lost => 3
  | .teardown => 4

/-- Code of a host queue state (Table 11-12). -/
def QSt.code : QSt → Nat
  | .absent => 0
  | .idle => 1
  | .open_ => 2
  | .blocked => 3
  | .draining => 4

/-- Where a sequencer stands (Table 08-7). -/
def State.seqState (s : State) (c : Nat) : Nat :=
  let x := s.cluster c
  match x.phase with
  | .idle => 0
  | .wiping => 1
  | .staging => 1
  | .ready => 1
  | .loading => 1
  | .copying => if x.task.isSome then 7 else 0
  | .ended => 7
  | .stopped => 7
  | .running =>
    if x.paraEnded then 7
    else
      match x.step with
      | .barrier => 4
      | .arrived => 4
      | .pre => if clauseOp x.word = 5 then 5 else 2
      | .post => if clauseOp x.word = 4 then 6 else 2
      | .body => if s.tilesOf.any (fun t => 256 ≤ (s.tile c t).clauseQ.length) then 3 else 2

/-- CTX_STALL and CTX_ENERGY as the 64-bit counts that they show (R282, R494). -/
def State.ctxCounter (s : State) (r : DieReg) (i : Nat) : Nat :=
  match r with
  | .ctxStall => Tbl.get 0 (s.ctx (i / 32)).stall (i % 32)
  | .ctxEnergy => (s.ctx i).energy / 10 ^ 9
  | _ => 0

/-- One word of a FAULT_LOG entry (Table 15-4). -/
def State.logWord (s : State) (i w : Nat) : Nat :=
  let e := Tbl.get LogEntry.fresh s.faults.log i
  let valid := (Tbl.find i s.faults.log).isSome
  match w with
  | 0 => e.seq.toNat
  | 1 =>
    if valid then
      pack [(0, 12, e.ctx.toNat), (12, 3, s.die / 2), (15, 1, s.die % 2), (16, 3, e.cl / 4), (19, 2, e.cl % 4), (21, 5, e.tile),
            (26, 4, e.cls), (31, 1, 1)]
    else 0
  | 2 => pack [(0, 3, e.action), (3, 1, b2n e.attempt), (8, 8, e.cell)]
  | _ => e.where_

/-- Words of the registers of chapters 01, 13 and 14. -/
def State.startWord (s : State) (r : DieReg) (i w : Nat) : Nat :=
  match r with
  | .build => s.build.toNat
  | .grade => s.grade.toNat
  | .shapeStatus =>
    pack [(0, 9, satTo 256 s.report.entries.length), (9, 1, b2n s.report.overflow), (16, 4, satTo 15 s.report.clamped),
          (20, 4, satTo 15 s.report.defaulted), (24, 4, satTo 15 s.report.truncated), (28, 2, s.report.state),
          (30, 1, b2n s.report.ignored)]
  | .report =>
    match s.report.entries[i]? with
    | none => 0
    | some e => if w = 0 then pack [(0, 8, e.field), (8, 5, e.index), (13, 3, e.action), (16, 4, e.cause)] else e.value
  | .cfgErr =>
    pack [(0, 8, s.cfg.first), (8, 1, b2n s.start.errorN), (9, 1, b2n s.cfg.early), (10, 1, b2n s.cfg.partial_),
          (11, 1, b2n s.cfg.shapeOnly), (16, 15, s.cfg.seen.toNat)]
  | .cfgInfo =>
    pack [(0, 13, s.cfg.written), (13, 13, s.cfg.skipped), (26, 1, b2n s.reloading), (27, 1, b2n s.cfg.kind)]
  | .startStatus =>
    pack [(0, 4, s.start.st), (4, 4, s.start.pos), (8, 1, b2n s.start.head), (9, 1, b2n s.start.inpkg),
          (10, 1, b2n s.start.noLock), (11, 1, b2n s.start.doneLate), (16, 16, s.start.loadMs)]
  | .reload =>
    pack [(0, 3, s.reload.region), (4, 1, b2n s.reload.reject), (5, 3, s.reload.st), (8, 8, s.reload.removed)]
  | .scrubStatus =>
    match w with
    | 0 => pack [(0, 16, s.scrub.noness), (16, 8, s.scrub.ess), (24, 8, s.scrub.privCorr)]
    | 1 => pack [(0, 8, s.scrub.vote), (8, 1, b2n s.scrub.lost), (16, 16, s.scrub.pass)]
    | _ => pack [(0, 24, s.scrub.lastAddr), (24, 2, s.scrub.kind)]
  | .scrubCfg =>
    let x := s.scrubCfg.toNat
    pack [(0, 8, zeroAsOne (bitsN x 0 8)), (8, 8, zeroAsOne (bitsN x 8 8)), (16, 8, zeroAsOne (bitsN x 16 8)),
          (24, 1, bitsN x 24 1)]
  | .serdesCfg =>
    let x := (Tbl.get 0 s.hard.serdes i).toNat
    pack [(0, 5, min 16 (bitsN x 0 5)), (5, 3, bitsN x 5 3)]
  | _ => 0

/-- Words of the registers of chapters 09 to 12. -/
def State.serviceWord (s : State) (r : DieReg) (i w : Nat) : Nat :=
  match r with
  | .storeRoomFree => s.storeRoomFree i w
  | .commitStatus =>
    pack [(0, 10, s.commits.length), (10, 1, b2n s.fullSeen), (16, 8, s.redo), (24, 8, s.badCrc)]
  | .waitscan => if w = 0 then pack [(0, 16, s.scanCycles), (16, 10, s.scanQueue)] else s.scanSeq.toNat
  | .qstream =>
    let q := s.queue i
    if s.queueState i = .absent then 0
    else if w = 0 then pack [(0, 12, q.rateRd), (12, 8, q.depthRd), (20, 9, q.outstanding)]
    else pack [(0, 12, q.rateWr), (12, 8, q.depthWr)]
  | .queueState =>
    let q := s.queue i
    if s.queueState i = .absent then 0
    else if w = 0 then
      pack [(0, 12, q.ctx.toNat), (12, 3, if q.st = .idle then s.queuePart i else q.part), (15, 3, (s.queueState i).code),
            (18, 2, q.block), (20, 12, (s.pendingOf i).length)]
    else pack [(0, 12, q.qdepth), (12, 16, q.waitLimit)]
  | .ctxStreamFault =>
    match (s.ctx i).stream with
    | none => 0
    | some (addr, seq, port) =>
      (match w with
       | 0 => bitsN addr 0 32
       | 1 => bitsN addr 32 16
       | 2 => seq
       | _ => pack [(0, 4, port), (4, 1, 1)])
  | .ctxTrap => ((s.ctx i).trap.getD w 0).toNat
  | .ctxState =>
    let x := s.ctx i
    pack [(0, 12, x.master.toNat), (12, 3, x.part), (15, 3, x.st.code), (18, 1, b2n x.resetPend), (20, 3, x.cause)]
  | .masterCfg =>
    let own := (s.ctxs.filter (fun p => p.1 < 4096 && p.2.st ≠ .free && p.2.master.toNat = i)).length
    pack [(0, 10, Tbl.get 0x64 s.hbLimit i), (10, 1, b2n (Tbl.get false s.expired i)), (12, 13, own)]
  | .ctxCount => if w = 0 then (s.ctx i).escSat else (s.ctx i).allocFail
  | .frontCfg =>
    let p := s.port i
    pack [(0, 12, p.midBase), (12, 12, p.midMask), (24, 1, b2n p.en), (25, 1, b2n p.hung)]
  | .frontStatus =>
    let p := s.port i
    if w = 0 then pack [(0, 16, p.midRej), (16, 16, p.badField)] else pack [(0, 16, p.wdErr), (16, 8, p.proto), (24, 8, p.irqLost)]
  | .portTimeout => pack [(0, 8, s.wdLimit), (8, 8, s.cellarLimit), (16, 10, s.respLimit)]
  | .cellarStatus =>
    let p := s.cport i
    if w = 0 then pack [(0, 16, p.corr), (16, 8, p.uncorr), (24, 8, p.badTag)]
    else pack [(0, 8, p.timeouts), (8, 7, p.quar.length), (15, 1, b2n p.down)]
  | _ => 0

/-- Words of the registers of chapters 15 and 16. -/
def State.faultWord (s : State) (r : DieReg) (i w : Nat) : Nat :=
  match r with
  | .faultStatus =>
    if w = 0 then pack [(0, 16, s.faults.corrected), (16, 8, s.faults.retried), (24, 8, s.faults.uncorr)]
    else pack [(0, 8, s.faults.capRem), (8, 8, s.faults.subst), (16, 8, s.faults.stream), (24, 4, s.faults.next)]
  | .coolantStatus =>
    pack [(0, 1, b2n s.faults.coolOk), (1, 1, b2n (s.faults.stopped || s.faults.thermal)), (8, 8, s.faults.stops), (16, 16, s.faults.resub)]
  | .capacity =>
    pack [(0, 3, s.faults.capReg), (3, 1, b2n s.faults.capRegScope), (6, 3, s.faults.capSt), (16, 8, s.faults.lost),
          (24, 8, s.faults.out.toNat)]
  | .faultLog => s.logWord i w
  | .secStatus =>
    let held := (List.range 8).map (fun k => (1 + k, 1, b2n (Tbl.find k s.sec.slots).isSome))
    let sealed_ := (s.objs.filter (fun p => p.2.st = .live && p.2.policy.isSome)).length
    pack ((0, 1, b2n s.sec.fuseKey.isSome) :: (9, 2, s.sec.anchors.length) :: (11, 1, b2n s.sec.idOk) ::
      (12, 1, b2n s.sec.vbatLost) :: (16, 16, sealed_) :: held)
  | .mgmtStatus =>
    pack [(0, 1, b2n s.sec.fallback), (1, 2, s.sec.cause), (3, 1, b2n s.locked),
          (4, 2, (s.sec.sessions.filter (fun p => p.2.finished)).length), (8, 8, s.sec.fails), (16, 8, s.sec.lockouts)]
  | .parcelStatus =>
    (match w with
     | 0 => pack [(0, 4, s.sec.parcelCode), (4, 1, b2n (s.sec.opening.isSome || s.sec.openWaits.isSome)), (5, 7, s.sec.parcelNSlice)]
     | 1 => s.sec.parcelId.toNat
     | _ => satTo 65535 s.sec.opened)
  | .probeCtl => b2n s.sec.probeEn
  | .fallbackCfg =>
    let x := s.hard.fallback.toNat
    pack [(0, 4, zeroAsOne (bitsN x 0 4)), (4, 8, bitsN x 4 8), (12, 8, zeroAsOne (bitsN x 12 8))]
  | _ => 0

/-- Words of the registers of chapters 17 to 19. -/
def State.powerWord (s : State) (r : DieReg) (i w : Nat) : Nat :=
  match r with
  | .clkStatus =>
    let div := (List.range 8).map (fun q => (2 * q, 2, if s.present q then s.divider q - 2 else 3))
    let stretch := (List.range 8).map (fun q => (16 + q, 1, b2n ((s.monitor q).droop || (s.monitor q).nbr)))
    pack (div ++ stretch ++ [(24, 1, b2n s.power.rootLock), (25, 1, b2n s.power.aclkStop)])
  | .regionMon =>
    let m := s.monitor i
    pack [(0, 8, m.temp), (8, 10, m.supply), (18, 1, b2n m.droop), (19, 1, b2n m.nbr), (20, 2, if m.thrOwn then 3 else m.thrPair),
          (22, 8, m.trips)]
  | .domainCtl => pack [(0, 8, s.power.ctlDomain), (10, 2, s.power.ctlResult)]
  | .powerStatus => pack [(0, 9, s.power.power), (9, 3, s.power.capStep), (16, 8, s.capEff), (24, 8, s.power.trips)]
  | .domainState => pack ((List.range 16).map (fun k => (2 * k, 2, if 16 * i + k ≤ 200 then s.domainSt (16 * i + k) else 0)))
  | .powerCfg => bitsN s.hard.powerCfg.toNat 0 9
  | .spanStatus =>
    let p := s.spanOf i
    (match w with
     | 0 => pack [(0, 3, p.st), (3, 1, b2n p.ring), (4, 4, p.peer), (8, 3, p.cause), (16, 16, p.lat)]
     | 1 => pack [(0, 16, p.replay), (16, 8, p.crcErr), (24, 8, p.retrain)]
     | _ => pack [(0, 4, p.auth), (4, 8, p.format), (12, 8, p.aborts)])
  | .seamStatus =>
    pack [(0, 2, s.seam.st), (2, 1, b2n (!s.hasSeam)), (8, 8, s.seam.retrain), (16, 8, s.seam.aborts), (24, 8, s.seam.format)]
  | .linkCfg =>
    let x := s.hard.link.toNat
    pack [(0, 8, zeroAsOne (bitsN x 0 8)), (8, 8, zeroAsOne (bitsN x 8 8)), (16, 4, zeroAsOne (bitsN x 16 4))]
  | .ctlErr =>
    let e := Tbl.get { addr := 0, cause := 0, err := false } s.ctlErr i
    pack [(0, 24, e.addr), (24, 4, e.cause), (31, 1, b2n e.err)]
  | .bcastSkip => pack [(0, 16, s.skipLast), (16, 16, s.skipTotal)]
  | .groupMask => (Tbl.get 0 s.groups i).toNat
  | _ => 0

/-- A word of a die-global register, but for the latched high words. Each register is laid out by exactly one of the four
parts. -/
def State.dieWord (s : State) (r : DieReg) (i w : Nat) : Word :=
  BitVec.ofNat 32 (s.startWord r i w + s.serviceWord r i w + s.faultWord r i w + s.powerWord r i w +
    bitsN (s.ctxCounter r i) (32 * w) 32)

/-- A word of a tile or cluster register; the tile is the physical one (R144). -/
def State.localWord (s : State) (c t : Nat) (r : LocalReg) : Word :=
  let x := s.cluster c
  let h := s.silicon (c * 17 + t)
  let y := Tbl.get Tile.fresh s.tiles (c * 17 + t)
  BitVec.ofNat 32 (match r with
    | .tileFmax => bitsN h.fmax.toNat 0 7
    | .tileHealth => pack [(0, 16, h.corr), (16, 8, h.csum), (24, 8, h.detect)]
    | .tileHealthClear => 0
    | .clauseErr => pack [(0, 16, y.errCount), (16, 4, y.errCause), (20, 3, y.errSlot), (23, 1, b2n y.errValid), (24, 8, y.errWarn)]
    | .clauseErrAt => bitsN y.errAt 0 20
    | .tileRun => pack [(0, 16, y.oow), (16, 16, y.residue)]
    | .tileRunExempt => pack [(0, 16, y.exempt)]
    | .spareMap =>
      pack [(0, 5, x.spare.target), (5, 1, b2n x.spare.active), (6, 1, b2n x.spare.fused), (16, 8, x.spare.count)]
    | .seqStatus =>
      pack [(0, 20, x.nextBroadcast), (20, 4, x.loops.length), (24, 3, s.seqState c),
            (27, 2, if s.seqState c = 4 then clausePunct x.word else 0)]
    | .seqErr => pack [(0, 8, x.seqErrs), (8, 3, x.seqCause), (11, 1, b2n x.seqErrValid), (12, 20, x.seqErrAt)]
    | .mboxStatus => pack [(0, 5, x.mbox.length), (16, 8, satTo 255 x.sent), (24, 8, satTo 255 x.received)]
    | .extStatus => pack [(0, 4, x.extEpoch), (4, 1, b2n (!s.hasExt)), (8, 8, satTo 255 x.extStale), (16, 8, satTo 255 x.extUnowed)])

/-! ### Readers and writers (R524, R525) -/

/-- The management endpoint among those who send accesses; the others are masters. -/
def mgmt : Nat := 4096

/-- The IEEE 1149.1 test access port as a reader of the control space (R387). -/
def testPort : Nat := 4097

/-- Whether a master owns a context of this die. -/
def State.isMasterOf (s : State) (who id : Nat) : Bool := (s.ctx id).st ≠ .free && (s.ctx id).master.toNat = who

/-- Whether a die-global register admits a read (R524 and the registers' own rules). -/
def State.mayRead (s : State) (who : Nat) (r : DieReg) (i : Nat) : Bool :=
  if who = mgmt then true
  else if who = testPort then
    match r with
    | .cfgErr => true
    | .cfgInfo => true
    | .startStatus => true
    | _ => false
  else
    match r with
    | .build => true
    | .grade => true
    | .shapeStatus => true
    | .report => true
    | .cfgErr => true
    | .cfgInfo => true
    | .startStatus => true
    | .powerStatus => true
    | .ctlErr => s.portOf who = some i
    | .storeRoomFree =>
      s.ctxs.any (fun p => p.1 < 4096 && p.2.st ≠ .free && p.2.part = i && p.2.master.toNat = who)
    | .qstream => s.queueMaster i = some who
    | .queueState => s.queueMaster i = some who
    | .ctxStall => s.isMasterOf who (i / 32)
    | .ctxStreamFault => s.isMasterOf who i
    | .ctxTrap => s.isMasterOf who i
    | .ctxState => s.isMasterOf who i
    | .ctxEnergy => s.isMasterOf who i
    | .ctxCount => s.isMasterOf who i
    | _ => false

/-- Whether a die-global register admits a write (R279, R331, R524). -/
def State.mayWrite (s : State) (who : Nat) (r : DieReg) (i : Nat) : Bool :=
  who = mgmt ||
    (match r with
     | .qstream => s.queueMaster i = some who
     | .queueState => s.queueMaster i = some who
     | .masterCfg => i = who
     | _ => false)

/-- Whether a register shows the run of a cluster (R525). -/
def LocalReg.ofRun : LocalReg → Bool
  | .clauseErr => true
  | .clauseErrAt => true
  | .tileRun => true
  | .tileRunExempt => true
  | .seqStatus => true
  | .seqErr => true
  | .mboxStatus => true
  | .extStatus => true
  | _ => false

/-- Whether the management endpoint may read a tile or cluster register: of a run's registers those that Table 16-6 and R357 give it
(R244, R525). -/
def LocalReg.forMgmt : LocalReg → Bool
  | .seqStatus => false
  | .mboxStatus => false
  | .tileRun => false
  | .tileRunExempt => false
  | _ => true

/-- Whether a tile or cluster register admits a read: the registers of a run, to the master of the context whose run it is or
was last (R525). -/
def State.mayReadLocal (s : State) (who c : Nat) (r : LocalReg) : Bool :=
  (who = mgmt && r.forMgmt) || (r.ofRun && (match (s.cluster c).view with
    | none => false
    | some k => k < 4096 && s.isMasterOf who k))

/-! ### Addresses (R517 to R519) -/

/-- A die-global address. -/
def dieAddr (off : Nat) : BitVec 26 := BitVec.ofNat 26 (0x3000000 + off)

/-- A unicast address. -/
def localAddr (c field off : Nat) : BitVec 26 := BitVec.ofNat 26 (c * 2 ^ 19 + field * 2 ^ 14 + off)

/-- Access mode of an address. -/
def modeOf (a : Nat) : Nat := bitsN a 24 2
/-- Cluster of a unicast address. -/
def clusterField (a : Nat) : Nat := bitsN a 19 5
/-- Tile field of an address. -/
def tileField (a : Nat) : Nat := bitsN a 14 5
/-- Register offset of an address. -/
def offsetField (a : Nat) : Nat := bitsN a 0 14

/-- Whether a target is unusable (R519): tile field unused, region not present, tile absent, domain not ON, or region in
reset. -/
def State.unusable (s : State) (c field : Nat) : Bool :=
  let built := field = 31 || field = 16 || decide (field < s.tpc)
  let domain := if field = 31 then 160 + c else if field = 16 then 128 + c else 4 * c + field / 4
  !built || !s.present (c / 4) || s.domainSt domain ≠ 2 || Tbl.get false s.reload.held (c / 4)

/-- Record an access in CTL_ERR of its reader (R528): index 4 is the management endpoint's. -/
def State.ctlError (s : State) (who addr cause : Nat) : State :=
  match (if who = mgmt then some 4 else s.portOf who) with
  | none => s
  | some f => { s with ctlErr := Tbl.set f { addr := addr / 4, cause := cause, err := true } s.ctlErr }

/-- An access that no register admits to a tenant: recorded for the management endpoint only (R342, R528). -/
def State.badAccess (s : State) (who addr cause : Nat) : State := if who = mgmt then s.ctlError who addr cause else s

/-- Whether the bits of a broadcast or group address that must be 0 are (Table 19-1). -/
def zerosOk (a : Nat) : Bool := if modeOf a = 1 then clusterField a = 0 else bitsN a 19 1 = 0

/-! ### Reading -/

/-- Whether a register word is the low or the high word of a latched counter (R282, R527). -/
def DieReg.latched : DieReg → Bool
  | .ctxStall => true
  | .ctxEnergy => true
  | _ => false

/-- An admitted read of a die-global register: a low word latches its high word for this reader, which reads it as latched
(R282, R527). -/
def State.readDie (s : State) (who off : Nat) (r : DieReg) (i w : Nat) : Word × State :=
  if r.latched then
    if w = 0 then
      (s.dieWord r i 0, { s with latch := Tbl.set (who * 2 ^ 24 + off) (s.dieWord r i 1) s.latch })
    else (Tbl.get 0 s.latch (who * 2 ^ 24 + (off - 4)), s)
  else (s.dieWord r i w, s)

/-- What the test access port reads at a die-global offset (R387). -/
def State.testRead (s : State) (off : Nat) : Word :=
  match dieRegAt off with
  | some (r, i, w) => if s.mayRead testPort r i then s.dieWord r i w else 0
  | none => 0

/-- A control-space read (R342, R517 to R524): the value and what the access leaves. -/
def State.ctlRead (s : State) (who : Nat) (addr : BitVec 26) : Word × State :=
  let a := addr.toNat
  if a % 4 ≠ 0 then (0, s.badAccess who a 4)
  else if modeOf a = 3 then
    match dieRegAt (a % 2 ^ 24) with
    | none => (0, s.badAccess who a 3)
    | some (r, i, w) => if s.mayRead who r i then s.readDie who (a % 2 ^ 24) r i w else (0, s)
  else if modeOf a = 0 then
    let c := clusterField a
    let f := tileField a
    match localRegAt f (offsetField a) with
    | none => (0, s.badAccess who a (if s.unusable c f || f = 30 then 2 else 3))
    | some r =>
      if !s.mayReadLocal who c r then (0, s)
      else if s.unusable c f then (0, s.ctlError who a 2)
      else (s.localWord c f r, s)
  else (0, s.badAccess who a (if zerosOk a then 1 else 4))

/-! ### Writing -/

/-- Words of CFG that RELOAD, SCRUB_STATUS and the configuration registers take (R402, R418). -/
def State.writeReload (s : State) (v : Nat) : State :=
  let s := if bitN v 4 then { s with reload := { s.reload with reject := false } } else s
  let s := { s with reload := { s.reload with region := bitsN v 0 3 } }
  if bitN v 3 then s.requestReload (bitsN v 0 3) else s

/-- QSTREAM: the word's fields, and its bucket full again; an absent queue has none (R278, R279). -/
def State.writeQstream (s : State) (q w v : Nat) : State :=
  if s.queueState q = .absent then s
  else
    let rate := bitsN v 0 12
    let depth := clampTo 1 255 (bitsN v 12 8)
    s.onQueue q (fun x =>
      if w = 0 then { x with rateRd := rate, depthRd := depth, outstanding := clampTo 1 256 (bitsN v 20 9), bucketRd := depth * 1024 }
      else { x with rateWr := rate, depthWr := depth, bucketWr := depth * 1024 })

/-- FRONT_CFG (R345, R357). -/
def State.writeFrontCfg (s : State) (f v : Nat) : State :=
  let s := s.onPort f (fun p => { p with midBase := bitsN v 0 12, midMask := bitsN v 12 12, en := bitN v 24 })
  if bitN v 26 then s.clearHung f else s

/-- CAPACITY (R437, R438). -/
def State.writeCapacity (s : State) (v : Nat) : State :=
  let region := bitsN v 0 3
  let scope := bitN v 3
  let s := { s with faults := { s.faults with capReg := region, capRegScope := scope } }
  if bitsN v 4 2 = 1 then s.withdraw scope region else if bitsN v 4 2 = 2 then s.restore scope region else s

/-- DOMAIN_CTL (R481, R482). -/
def State.writeDomainCtl (s : State) (v : Nat) : State :=
  let d := min 200 (bitsN v 0 8)
  if bitsN v 8 2 = 1 then s.requestDomain d true
  else if bitsN v 8 2 = 2 then s.requestDomain d false
  else { s with power := { s.power with ctlDomain := d } }

/-- PROBE_CTL: the session that sets PROBE_EN is the one whose end clears it; outside a session nobody sets it (R365, R466). -/
def State.writeProbe (s : State) (sess : Option Nat) (v : Nat) : State :=
  let en := bitN v 0
  if en && sess.isNone then s
  else { s with sec := { s.sec with
      probeEn := en
      sessions := Tbl.mapVals (fun i x => { x with probe := en && decide (sess = some i) }) s.sec.sessions } }

/-- MASTER_CFG (R331). -/
def State.writeMaster (s : State) (m v : Nat) : State :=
  { s with hbLimit := Tbl.set m (clampTo 10 1000 (bitsN v 0 10)) s.hbLimit
           expired := if bitN v 10 then Tbl.set m false s.expired else s.expired }

/-- An admitted write of a die-global register word: its writable fields take effect, its other bits are ignored (R11). -/
def State.writeDie (s : State) (sess : Option Nat) (r : DieReg) (i w v : Nat) : State :=
  match r with
  | .ctlErr =>
    if bitN v 31 then
      let e := Tbl.get { addr := 0, cause := 0, err := false } s.ctlErr i
      { s with ctlErr := Tbl.set i { e with err := false } s.ctlErr }
    else s
  | .groupMask => { s with groups := Tbl.set i (BitVec.ofNat 32 v) s.groups }
  | .reload => s.writeReload v
  | .scrubStatus => if w = 1 && bitN v 8 then { s with scrub := { s.scrub with lost := false } } else s
  | .commitStatus => if bitN v 10 then { s with fullSeen := false } else s
  | .frontCfg => s.writeFrontCfg i v
  | .portTimeout =>
    { s with wdLimit := clampTo 1 255 (bitsN v 0 8), cellarLimit := clampTo 1 255 (bitsN v 8 8),
             respLimit := clampTo 1 1000 (bitsN v 16 10) }
  | .capacity => s.writeCapacity v
  | .secStatus => if bitN v 12 then { s with sec := { s.sec with vbatLost := false } } else s
  | .probeCtl => s.writeProbe sess v
  | .domainCtl => s.writeDomainCtl v
  | .powerCfg =>
    { s with hard := { s.hard with powerCfg := BitVec.ofNat 32 (zeroAsOne (bitsN v 0 8) + bitsN v 8 1 * 256) } }
  | .qstream => s.writeQstream i w v
  | .queueState =>
    if w = 1 && s.queueState i ≠ .absent then
      s.onQueue i (fun x => { x with qdepth := clampTo 1 4095 (bitsN v 0 12), waitLimit := clampTo 2 60000 (bitsN v 12 16) })
    else s
  | .masterCfg => s.writeMaster i v
  | _ => s

/-- Clear the protection counts of a physical tile (R531). -/
def State.clearHealth (s : State) (key : Nat) : State := s.onSilicon key (fun h => { h with corr := 0, csum := 0, detect := 0 })

/-- An admitted write of a tile or cluster register word (R145, R531). -/
def State.writeLocal (s : State) (c t : Nat) (r : LocalReg) (v : Nat) : State :=
  match r with
  | .tileHealthClear => if bitN v 0 then s.clearHealth (c * 17 + t) else s
  | .spareMap => if bitN v 7 then s.releaseSpare c else s
  | _ => s

/-- The tile fields that one cluster contributes to a broadcast or group write (R518, R521). -/
def targetFields (field : Nat) : List Nat := if field = 30 then List.range 17 else [field]

/-- Write one target, or count it as skipped (R521). -/
def State.writeTarget (off v : Nat) (p : State × Nat) (t : Nat × Nat) : State × Nat :=
  if p.1.unusable t.1 t.2 then (p.1, p.2 + 1)
  else
    match localRegAt t.2 off with
    | none => p
    | some r => (p.1.writeLocal t.1 t.2 r v, p.2)

/-- The clusters that a broadcast or group write names, ascending (R521). -/
def State.namedClusters (s : State) (a : Nat) : List Nat :=
  if modeOf a = 1 then List.range 32
  else (List.range 32).filter (fun c => (Tbl.get 0 s.groups (bitsN a 20 4)).getLsbD c)

/-- A broadcast or group write (R521, R522). -/
def State.spread (s : State) (a v : Nat) : State :=
  let f := tileField a
  let off := offsetField a
  if (localRegAt f off).isNone && !(17 ≤ f && f ≤ 29) then s.ctlError mgmt a 3
  else
    let targets := (s.namedClusters a).flatMap (fun c => (targetFields f).map (fun t => (c, t)))
    let (t, n) := targets.foldl (State.writeTarget off v) (s, 0)
    { t with skipLast := satTo 65535 n, skipTotal := satTo 65535 (t.skipTotal + n) }

/-- A control-space write (R342, R517 to R524). -/
def State.ctlWrite (s : State) (who : Nat) (sess : Option Nat) (addr : BitVec 26) (val : Word) : State :=
  let a := addr.toNat
  if a % 4 ≠ 0 then s.badAccess who a 4
  else if modeOf a = 3 then
    match dieRegAt (a % 2 ^ 24) with
    | none => s.badAccess who a 3
    | some (r, i, w) => if s.mayWrite who r i then s.writeDie sess r i w val.toNat else s
  else if who ≠ mgmt then s
  else if modeOf a = 0 then
    let c := clusterField a
    let f := tileField a
    match localRegAt f (offsetField a) with
    | none => s.ctlError who a (if s.unusable c f || f = 30 then 2 else 3)
    | some r => if s.unusable c f then s.ctlError who a 2 else s.writeLocal c f r val.toNat
  else if !zerosOk a then s.ctlError who a 4
  else s.spread a val.toNat

/-! ### Commands of the front ports and the management endpoint -/

/-- CTL_RD on a front port: the read value in the answer's low word, STATUS always 0 (R342). -/
def execCtlRd (port : Fin 4) (b : CmdBeat) (s : State) : Out :=
  .next (s.command port.val 0x40 0 b (b.arg0.truncate 2 == (0 : BitVec 2)) (fun s =>
    let (v, s) := s.ctlRead b.mid.toNat (b.arg0.truncate 26)
    s.ok v.toNat))

/-- CTL_WR on a front port: the value is ARG1's low word (R342); as for a read, address bits 1:0 must be 0 (R344). -/
def execCtlWr (port : Fin 4) (b : CmdBeat) (s : State) : Out :=
  .next (s.command port.val 0x41 0 b (b.arg0.truncate 2 == (0 : BitVec 2)) (fun s =>
    (s.ctlWrite b.mid.toNat none (b.arg0.truncate 26) (b.arg1.truncate 32)).ok 0))

/-- Registers that the endpoint reads in fallback: the status registers (Table 16-8). -/
def statusReg (addr : BitVec 26) : Bool :=
  let a := addr.toNat
  if modeOf a = 3 then
    match dieRegAt (a % 2 ^ 24) with
    | some (.shapeStatus, _, _) => true
    | some (.cfgErr, _, _) => true
    | some (.cfgInfo, _, _) => true
    | some (.startStatus, _, _) => true
    | some (.scrubStatus, _, _) => true
    | some (.commitStatus, _, _) => true
    | some (.frontStatus, _, _) => true
    | some (.cellarStatus, _, _) => true
    | some (.faultStatus, _, _) => true
    | some (.coolantStatus, _, _) => true
    | some (.secStatus, _, _) => true
    | some (.mgmtStatus, _, _) => true
    | some (.parcelStatus, _, _) => true
    | some (.clkStatus, _, _) => true
    | some (.powerStatus, _, _) => true
    | some (.spanStatus, _, _) => true
    | some (.seamStatus, _, _) => true
    | _ => false
  else
    match localRegAt (tileField a) (offsetField a) with
    | some .extStatus => true
    | _ => false

/-- CTL_RD of the management endpoint: SERVICE; in fallback the status registers only (R464, R468, Table 16-8). -/
def execMgmtCtlRd (sess : Fin 2) (addr : BitVec 26) (s : State) : Out :=
  .next (s.managed sess.val roleService (statusReg addr) (fun s =>
    let (v, s) := s.ctlRead mgmt addr
    s.answer (.value v)))

/-- Whether an address is PROBE_CTL's. -/
def probeAddr (addr : BitVec 26) : Bool := addr = dieAddr 0x820

/-- CTL_WR of the management endpoint: ADMIN, for PROBE_CTL also SERVICE (R464, R466). -/
def execMgmtCtlWr (sess : Fin 2) (addr : BitVec 26) (val : Word) (s : State) : Out :=
  .next (s.managed sess.val (if probeAddr addr then roleService ||| roleAdmin else roleAdmin) false (fun s =>
    (s.ctlWrite mgmt (some sess.val) addr val).answer .ok))

/-! ### Accesses with rows of their own -/

/-- SPARE_RELEASE: a write of 1 to SPARE_MAP.RELEASE (R145). -/
def execSpareRelease (cl : Fin 32) (s : State) : Out := .next (s.ctlWrite mgmt none (localAddr cl.val 31 0x40) 0x80)

/-- QSTREAM_WRITE (R278, R279). -/
def execQstreamWrite (who : Fin 4097) (q : Fin 1024) (word : Fin 2) (val : Word) (s : State) : Out :=
  .next (s.ctlWrite who.val none (dieAddr (0x4000 + 8 * q.val + 4 * word.val)) val)

/-- RELOAD_REQUEST: RELOAD with REGION and GO (R402). -/
def execReloadRequest (who : Fin 4097) (region : Fin 8) (s : State) : Out :=
  .next (s.ctlWrite who.val none (dieAddr 0x210) (BitVec.ofNat 32 (region.val + 8)))

/-- DOMAIN_ON: DOMAIN_CTL with OP 0b01 (R481). -/
def execDomainOn (who : Fin 4097) (domain : BitVec 8) (s : State) : Out :=
  .next (s.ctlWrite who.val none (dieAddr 0x940) (BitVec.ofNat 32 (domain.toNat + 0x100)))

/-- DOMAIN_OFF: DOMAIN_CTL with OP 0b10 (R482). -/
def execDomainOff (who : Fin 4097) (domain : BitVec 8) (s : State) : Out :=
  .next (s.ctlWrite who.val none (dieAddr 0x940) (BitVec.ofNat 32 (domain.toNat + 0x200)))

/-- CAPACITY_WITHDRAW: CAPACITY with OP 0b01 (R437). -/
def execCapacityWithdraw (who : Fin 4097) (wholeDie : Bool) (region : Fin 8) (s : State) : Out :=
  .next (s.ctlWrite who.val none (dieAddr 0x680) (BitVec.ofNat 32 (region.val + 8 * b2n wholeDie + 0x10)))

/-- CAPACITY_RESTORE: CAPACITY with OP 0b10 (R438). -/
def execCapacityRestore (who : Fin 4097) (wholeDie : Bool) (region : Fin 8) (s : State) : Out :=
  .next (s.ctlWrite who.val none (dieAddr 0x680) (BitVec.ofNat 32 (region.val + 8 * b2n wholeDie + 0x20)))

/-- An address with another access mode. -/
def withMode (addr : BitVec 26) (mode : Nat) : BitVec 26 := BitVec.ofNat 26 (addr.toNat % 2 ^ 24 + mode * 2 ^ 24)

/-- BROADCAST_WRITE (R521, R522). -/
def execBroadcastWrite (who : Fin 4097) (addr : BitVec 26) (val : Word) (s : State) : Out :=
  .next (s.ctlWrite who.val none (withMode addr 1) val)

/-- GROUP_WRITE (R521, R522). -/
def execGroupWrite (who : Fin 4097) (addr : BitVec 26) (val : Word) (s : State) : Out :=
  .next (s.ctlWrite who.val none (withMode addr 2) val)

/-- CTX_STALL_READ: a read of the low word of one cause of a context (R282). -/
def execCtxStallRead (who : Fin 4097) (context : BitVec 12) (cause : Fin 32) (s : State) : Out :=
  .next (s.ctlRead who.val (dieAddr (0x400000 + 256 * context.toNat + 8 * cause.val))).2

/-- TILE_HEALTH_CLEAR: word 1 of TILE_HEALTH with CLEAR (R531). -/
def execTileHealthClear (who : Fin 4097) (cl : Fin 32) (tile : Fin 17) (s : State) : Out :=
  .next (s.ctlWrite who.val none (localAddr cl.val tile.val 0x24) 1)

/-- FULL_SEEN_CLEAR (R271). -/
def execFullSeenClear (who : Fin 4097) (s : State) : Out := .next (s.ctlWrite who.val none (dieAddr 0x280) 0x400)

/-- EXPIRED_CLEAR: MASTER_CFG with its HB_LIMIT as it stands (R331). -/
def execExpiredClear (who : Fin 4097) (m : BitVec 12) (s : State) : Out :=
  .next (s.ctlWrite who.val none (dieAddr (0x540000 + 4 * m.toNat))
    (BitVec.ofNat 32 (Tbl.get 0x64 s.hbLimit m.toNat % 1024 + 0x400)))

/-- REJECT_CLEAR: RELOAD with its REGION as it stands (R418). -/
def execRejectClear (who : Fin 4097) (s : State) : Out :=
  .next (s.ctlWrite who.val none (dieAddr 0x210) (BitVec.ofNat 32 (s.reload.region % 8 + 0x10)))

/-- LOST_CLEAR (R418). -/
def execLostClear (who : Fin 4097) (s : State) : Out := .next (s.ctlWrite who.val none (dieAddr 0x224) 0x100)

/-- VBAT_LOST_CLEAR (R470). -/
def execVbatLostClear (who : Fin 4097) (s : State) : Out := .next (s.ctlWrite who.val none (dieAddr 0x800) 0x1000)

/-- CTL_ERR_CLEAR (R528). -/
def execCtlErrClear (who : Fin 4097) (f : Fin 5) (s : State) : Out :=
  .next (s.ctlWrite who.val none (dieAddr (0x110 + 4 * f.val)) 0x80000000)

/-- REGISTER_WRITE: a write of any register (R529). -/
def execRegisterWrite (who : Fin 4097) (addr : BitVec 26) (val : Word) (s : State) : Out :=
  .next (s.ctlWrite who.val none addr val)

end Sys2Proof.Machine
end

