-- ==== Sys2Proof/Machine/LoadStore.lean ====
section
/-! DEFINITION. The load and store slots, the steps of every slot, and memory accesses as they complete (05, 07, 09). -/
namespace Sys2Proof.Machine

/-- NSTEP + 1 of a load field. -/
def lSteps (f : Nat) : Nat := bitsN f 20 16 + 1
/-- NSTEP + 1 of a store field. -/
def sSteps (f : Nat) : Nat := bitsN f 14 16 + 1

/-- Energy of one line at a target, in pJ (Table 17-4); cellar granules are charged when they are granted. -/
def State.lineCost (s : State) (tg : Target) (width : Nat) : Nat :=
  match tg with
  | .here a => if a < 2 ^ 40 then 10 else 20
  | .remote d _ _ _ _ => (if d / 2 = s.die / 2 then 20 else 250) * ((width + 63) / 64)
  | _ => 0

/-- A load or store verb as it begins (R155, R166, R168). -/
def LSAct.begin (x : Tile) (cl : Clause) (verb agd agd2 dst : Nat) (tok : BitVec 4) (tmode left : Nat) (acts : Bool) : LSAct :=
  { verb := verb, seq := cl.seq, addr := cl.addr, acts := acts, agd := agd, agd2 := agd2, dst := dst, tok := tok,
    tmode := tmode, left := left, bases := (List.range 4).map x.base, first := true, xfer := 0 }

/-- The load slot is busy while an earlier verb steps. -/
def loadWait (t : Tile) (_ : Nat) : Wait := if t.lact.isSome || t.stuck 3 then .busy else .go
/-- The store slot is busy while an earlier verb steps. -/
def storeWait (t : Tile) (_ : Nat) : Wait := if t.sact.isSome || t.stuck 4 then .busy else .go

/-- Issue of a load verb. -/
def State.loadVerb (s : State) (p : Place) (verb : Nat) : State :=
  s.issueAs p 3 verb loadWait (fun s cl f acts =>
    s.onTile p.cl.val p.tile.val (fun x =>
      let x := if bitN f 19 && verb ≠ 3 then x.grst (bitsN f 4 5) else x
      let x := if bitN f 19 && verb = 4 then x.grst (bitsN f 36 5) else x
      { x with lact := some (LSAct.begin x cl verb (bitsN f 4 5) (bitsN f 36 5) (bitsN f 9 4) (BitVec.ofNat 4 (bitsN f 13 4))
                  (bitsN f 17 2) (lSteps f) acts) }))

/-- Issue of a store verb. -/
def State.storeVerb (s : State) (p : Place) (verb : Nat) : State :=
  s.issueAs p 4 verb storeWait (fun s cl f acts =>
    s.onTile p.cl.val p.tile.val (fun x =>
      let x := if bitN f 13 then x.grst (bitsN f 4 5) else x
      let x := if bitN f 13 && verb = 2 then x.grst (bitsN f 30 5) else x
      { x with sact := some (LSAct.begin x cl verb (bitsN f 4 5) (bitsN f 30 5) (bitsN f 9 4) 0 0 (sSteps f) acts) }))

/-- LD (R207). -/
def execLd (at_ : Place) (s : State) : Out := .next (s.loadVerb at_ 1)
/-- LDB (R208). -/
def execLdb (at_ : Place) (s : State) : Out := .next (s.loadVerb at_ 2)
/-- LDZ (R209). -/
def execLdz (at_ : Place) (s : State) : Out := .next (s.loadVerb at_ 3)
/-- FILL (R210). -/
def execFill (at_ : Place) (s : State) : Out := .next (s.loadVerb at_ 4)
/-- ST (R207). -/
def execSt (at_ : Place) (s : State) : Out := .next (s.storeVerb at_ 1)
/-- SPILL (R210). -/
def execSpill (at_ : Place) (s : State) : Out := .next (s.storeVerb at_ 2)

/-! ### Steps and their targets (R160, R171, R210) -/

/-- Tokens of a load step's entries (R160). -/
def LSAct.token (l : LSAct) (first : Bool) : BitVec 4 := tokenOf l.tmode l.tok first 0

/-- Reserve the entries of a load step in one tile; the destinations its data will fill. -/
def Tile.reserveStep (x : Tile) (t n : Nat) (l : LSAct) : Tile × List Dest :=
  (List.range n).foldl (fun (p : Tile × List Dest) h =>
    (p.1.reserve l.dst (l.token (l.first && h = 0)), p.2 ++ [{ tile := t, queue := l.dst, id := p.1.nextId, half := h }])) (x, [])

/-- Push the zero entries of a load step whose field does not act (R175). -/
def Tile.pushZeros (x : Tile) (n : Nat) (l : LSAct) : Tile :=
  (List.range n).foldl (fun x h => x.push l.dst 0 (l.token (l.first && h = 0))) x

/-- A verb after a step; none when its steps are done. -/
def LSAct.next (l : LSAct) (xfer : Nat) : Option LSAct :=
  if l.left ≤ 1 then none else some { l with left := l.left - 1, first := false, xfer := xfer }

/-- Address of a verb's next step. -/
def LSAct.addrOf (l : LSAct) (x : Tile) (n : Nat) (d : Desc) : Int := d.addr (x.position n) (l.bases.getD d.base 0)

/-- The two targets of a FILL or SPILL step: suppressed on either side is suppressed whole (R210). -/
def bothOrNone (a b : Target) : Target × Target :=
  if a.none? || b.none? then (.suppressed, .suppressed) else (a, b)

/-- The tiles of a cluster that hold an LDB of a clause. -/
def State.ldbTiles (s : State) (c seq : Nat) : List (Nat × LSAct) :=
  s.tilesOf.filterMap (fun t =>
    match (s.tile c t).lact with
    | some l => if l.verb = 2 && l.seq = seq then some (t, l) else none
    | none => none)

/-! ### Transfers: which begins next (R273, R274) -/

/-- Transfers of a tile in flight: issues with a step begun and not complete. -/
def Tile.transfers (t : Tile) : Nat :=
  let live (slot : Nat) (a : Option LSAct) : List Nat :=
    ((match a with
      | some l => if l.xfer = 1 then [l.seq] else []
      | none => []) ++
     (t.accs.filter (fun a => a.slot = slot && a.xfer = 1)).map (fun a => a.seq)).eraseDups
  (live 3 t.lact).length + (live 4 t.sact).length

/-- Transfers of a cluster in flight (R274). -/
def State.transfers (s : State) (c : Nat) : Nat := s.tilesOf.foldl (fun n t => n + (s.tile c t).transfers) 0

/-- Whether a target lies beyond the shelf of a tile, named by its key. -/
def Target.beyond (key : Nat) : Target → Bool
  | .here a => a / 2 ^ 20 != key
  | .cellar _ => true
  | .remote _ _ _ _ _ => true
  | .suppressed => false

/-- Whether the next step of a verb, in a tile as it stands, reaches beyond the tile's own shelf. -/
def State.stepBeyond (s : State) (c t slot : Nat) (l : LSAct) (x : Tile) : Bool :=
  let key := s.tileKey c t
  let tg (n : Nat) (write : Bool) : Target :=
    let d := (s.cluster c).desc n
    s.target c t d (l.addrOf x n d) write
  let both (p : Target × Target) : Bool := p.1.beyond key || p.2.beyond key
  match slot, l.verb with
  | 3, 3 => false
  | 3, 4 => both (bothOrNone (tg l.agd false) (tg l.agd2 true))
  | 3, _ => (tg l.agd false).beyond key
  | _, 2 => both (bothOrNone (tg l.agd2 false) (tg l.agd true))
  | _, _ => (tg l.agd true).beyond key

/-- A tile with the positions of a verb's descriptors moved by one step. -/
def Cluster.moved (y : Cluster) (slot : Nat) (l : LSAct) (x : Tile) : Tile :=
  let x := if slot = 3 && l.verb = 3 then x else x.advance l.agd (y.desc l.agd)
  if (slot = 3 && l.verb = 4) || (slot = 4 && l.verb = 2) then x.advance l.agd2 (y.desc l.agd2) else x

/-- Whether one of the next n steps of a verb reaches beyond the tile's own shelf. -/
def State.reaches (s : State) (c t slot : Nat) (l : LSAct) : Nat → Tile → Bool
  | 0, _ => false
  | n + 1, x => s.stepBeyond c t slot l x || s.reaches c t slot l n ((s.cluster c).moved slot l x)

/-- Whether a verb's next step begins a transfer: it is the first of an issue that reaches beyond the own shelf (R273). -/
def State.begins (s : State) (c t slot : Nat) (l : LSAct) : Bool :=
  l.acts && l.first && s.reaches c t slot l l.left (s.tile c t)

/-- Whether a verb's next step finds what it needs besides a place among the transfers: room for what it reads, data to write;
for LDB, in the tile whose read it is, every tile at the same step. -/
def State.stepReady (s : State) (c t slot : Nat) (l : LSAct) : Bool :=
  let x := s.tile c t
  let n := widthBytes ((s.cluster c).desc l.agd).width / 64
  match slot, l.verb with
  | 3, 1 => decide (n ≤ x.room l.dst)
  | 3, 2 =>
    let ts := s.ldbTiles c l.seq
    decide (ts.length = s.tpc) && ts.all (fun p => decide (p.2.left = l.left) && decide (n ≤ (s.tile c p.1).room p.2.dst)) &&
      decide ((ts.find? (fun p => p.2.acts)).map Prod.fst = some t)
  | 4, 1 => x.canPop l.dst n
  | _, _ => true

/-- The transfers of a cluster that wait to begin: tile, slot and issue count. -/
def State.waitingXfers (s : State) (c : Nat) : List (Nat × Nat × Nat) :=
  s.tilesOf.flatMap (fun t =>
    let one (slot : Nat) (a : Option LSAct) : List (Nat × Nat × Nat) :=
      match a with
      | some l => if s.begins c t slot l && s.stepReady c t slot l then [(t, slot, l.seq)] else []
      | none => []
    one 3 (s.tile c t).lact ++ one 4 (s.tile c t).sact)

/-- How many of the waiting transfers begin before one of a tile: in clause order within a tile, and between tiles in rounds
that start from the logical tile after the one served last (R274). -/
def State.xfersAhead (s : State) (c t slot seq : Nat) : Nat :=
  let ws := s.waitingXfers c
  let turn (i : Nat) : Nat := (i + 15 - (s.cluster c).xferLast) % 16
  let mine := (ws.filter (fun w => w.1 = t && (w.2.2 < seq || (w.2.2 = seq && w.2.1 < slot)))).length
  s.tilesOf.foldl (fun n i =>
    if i = t then n
    else n + Nat.min ((ws.filter (fun w => w.1 = i)).length) (mine + b2n (decide (turn i < turn t)))) mine

/-- Whether a verb's next step must wait: as a transfer it would exceed OUTSTANDING, those in flight and those that begin before
it counted (R274). -/
def State.tooMany (s : State) (c t slot : Nat) (l : LSAct) : Bool :=
  s.begins c t slot l &&
    (match s.clusterTask c with
     | none => false
     | some k => decide (k.outst ≤ s.transfers c + s.xfersAhead c t slot l.seq))

/-- The transfer mark of a verb with its next step. -/
def State.xferMark (s : State) (c t slot : Nat) (l : LSAct) : Nat := if s.begins c t slot l then 1 else l.xfer

/-- A transfer that begins has its turn: the next round starts after its tile (R274). -/
def State.servedXfer (s : State) (c t slot : Nat) (l : LSAct) : State :=
  if s.begins c t slot l then s.onCluster c (fun x => { x with xferLast := t }) else s

/-! ### One step -/

/-- An access as a load or store step opens it; one to another die's shelf or larder is sent at once, one to a cellar waits for
its grant. -/
def State.openStep (s : State) (c t : Nat) (a : Access) : State :=
  let far := (a.rd.map Target.far).getD ((a.wr.map Target.far).getD false)
  let cost := (a.rd.map (fun x => s.lineCost x a.width)).getD 0 + (a.wr.map (fun x => s.lineCost x a.width)).getD 0
  let s := s.openAccess c t { a with granted := far } cost
  if far then s.sendAccess c t a else s

/-- One LD step. -/
def State.ldStep (s : State) (c t : Nat) (l : LSAct) : State :=
  let d := (s.cluster c).desc l.agd
  let w := widthBytes d.width
  let n := w / 64
  let tg := s.target c t d (l.addrOf (s.tile c t) l.agd d) false
  if (s.tile c t).room l.dst < n then s.stall c 16
  else if s.tooMany c t 3 l then s.stall c 21
  else if l.acts && !s.canSend tg then s.stall c 23
  else
    let xf := s.xferMark c t 3 l
    let s := (s.servedXfer c t 3 l).useQueue c t 3 l.seq l.dst true
    let x := (s.tile c t).advance l.agd d
    if l.acts then
      let (x, ds) := x.reserveStep t n l
      let s := s.setTile c t { x with lact := l.next xf }
      s.openStep c t { id := x.nextId, slot := 3, seq := l.seq, xfer := xf, rd := some tg, wr := none, width := w, data := 0,
                       granted := false, have_ := 0, dests := ds, ctr := none }
    else s.setTile c t { x.pushZeros n l with lact := l.next xf }

/-- One LDZ step. -/
def State.ldzStep (s : State) (c t : Nat) (l : LSAct) : State :=
  if (s.tile c t).room l.dst = 0 then s.stall c 16
  else
    let s := s.useQueue c t 3 l.seq l.dst true
    s.setTile c t { (s.tile c t).pushZeros 1 l with lact := l.next 0 }

/-- One LDB step, for every tile of the cluster at once (R208): one read, at the address of the lowest tile whose field
acts. It waits until every tile has issued the verb. The other tiles whose field acts await the shared data. -/
def State.ldbStep (s : State) (c : Nat) (l : LSAct) : State :=
  let ts := s.ldbTiles c l.seq
  let d := (s.cluster c).desc l.agd
  let w := widthBytes d.width
  let n := w / 64
  if ts.length ≠ s.tpc || ts.any (fun p => p.2.left ≠ l.left || (s.tile c p.1).stuck 3) then s
  else if ts.any (fun p => (s.tile c p.1).room p.2.dst < n) then s.stall c 16
  else
    match ts.find? (fun p => p.2.acts) with
    | none =>
      ts.foldl (fun s p =>
        (s.useQueue c p.1 3 p.2.seq p.2.dst true).onTile c p.1 (fun x =>
          { (x.advance p.2.agd d).pushZeros n p.2 with lact := p.2.next 0 })) s
    | some (lead, ll) =>
      let tg := s.target c lead d (ll.addrOf (s.tile c lead) ll.agd d) false
      if s.tooMany c lead 3 ll then s.stall c 21
      else if !s.canSend tg then s.stall c 23
      else
        let xf := s.xferMark c lead 3 ll
        let s := s.servedXfer c lead 3 ll
        let (s, ds) := ts.foldl (fun (p : State × List Dest) e =>
          let s := p.1.useQueue c e.1 3 e.2.seq e.2.dst true
          let x := (s.tile c e.1).advance e.2.agd d
          if e.2.acts then
            let (x, dd) := x.reserveStep e.1 n e.2
            let x := if e.1 = lead then x else { x with shared := l.seq :: x.shared }
            (s.setTile c e.1 { x with lact := e.2.next (if e.1 = lead then xf else 0) }, p.2 ++ dd)
          else (s.setTile c e.1 { x.pushZeros n e.2 with lact := e.2.next 0 }, p.2)) (s, [])
        s.openStep c lead { id := (s.tile c lead).nextId, slot := 3, seq := l.seq, xfer := xf, rd := some tg, wr := none,
                            width := w, data := 0, granted := false, have_ := 0, dests := ds, ctr := none }

/-- One FILL step (load slot) or SPILL step (store slot): memory on one side, the own shelf on the other. -/
def State.copyStep (s : State) (c t slot : Nat) (l : LSAct) (src dst : Nat) : State :=
  let x := s.tile c t
  let ds := (s.cluster c).desc src
  let dd := (s.cluster c).desc dst
  let (rd, wr) := bothOrNone (s.target c t ds (l.addrOf x src ds) false) (s.target c t dd (l.addrOf x dst dd) true)
  if s.tooMany c t slot l then s.stall c 21
  else if l.acts && !(s.canSend rd && s.canSend wr) then s.stall c 23
  else
    let xf := s.xferMark c t slot l
    let s := s.servedXfer c t slot l
    let x := (x.advance src ds).advance dst dd
    let x := if slot = 3 then { x with lact := l.next xf } else { x with sact := l.next xf }
    let s := s.setTile c t x
    if l.acts then
      s.openStep c t { id := x.nextId, slot := slot, seq := l.seq, xfer := xf, rd := some rd, wr := some wr,
                       width := widthBytes ds.width, data := 0, granted := false, have_ := 0, dests := [], ctr := none }
    else s

/-- One ST step. -/
def State.stStep (s : State) (c t : Nat) (l : LSAct) : State :=
  let x := s.tile c t
  let d := (s.cluster c).desc l.agd
  let w := widthBytes d.width
  let n := w / 64
  let tg := s.target c t d (l.addrOf x l.agd d) true
  if !x.canPop l.dst n then s.stall c l.dst
  else if s.tooMany c t 4 l then s.stall c 21
  else if l.acts && !s.canSend tg then s.stall c 23
  else
    let xf := s.xferMark c t 4 l
    let s := s.servedXfer c t 4 l
    let (es, x) := x.popN l.dst n
    let x := x.advance l.agd d
    let s := s.setTile c t { x with sact := l.next xf }
    let data := (es.zip (List.range n)).foldl (fun a p => a + p.1.data.toNat * 2 ^ (512 * p.2)) 0
    if l.acts then
      s.openStep c t { id := x.nextId, slot := 4, seq := l.seq, xfer := xf, rd := none, wr := some tg, width := w,
                       data := BitVec.ofNat 1024 data, granted := false, have_ := 0, dests := [], ctr := none }
    else s

/-- A slot's next field is illegal by its reserved verb code: it issues with an undefined effect (R176). -/
def State.reservedStep (s : State) (p : Place) (slot : Nat) : State :=
  match (s.tile p.cl.val p.tile.val).nextClause slot with
  | none => s
  | some cl =>
    let f := slotField slot cl.word
    if (usedBits slot (verbOf slot f) f).isNone then
      s.issueAs p slot (verbOf slot f)
        (fun t _ => if slot = 2 && t.blocks.any (fun b => b.k < b.K) then .busy else .go) (fun s _ _ _ => s)
    else s

/-- SLOT_STEP: one step of the verb that a slot has issued (R156); a slot with none takes up a field whose verb code is
reserved, and one whose cellar step waits for its grant makes none (R272). An upset met in the step comes first (R138,
R421). -/
def execSlotStep (at_ : Place) (slot : Fin 6) (u : Upset) (s : State) : Out :=
  let c := at_.cl.val
  let t := at_.tile.val
  if !(s.cluster c).issues || s.tpc ≤ t then .next s
  else
    let s := s.upset c t u
    if upsetStops u then .next s
    else
      let x := s.tile c t
      if x.stuck slot.val then .next s
      else .next (match slot.val with
        | 1 => (match x.vact with
          | some v => s.vectorStep c t v
          | none => s.reservedStep at_ 1)
        | 3 => (match x.lact with
          | some l =>
            if l.verb = 1 then s.ldStep c t l
            else if l.verb = 2 then s.ldbStep c l
            else if l.verb = 3 then s.ldzStep c t l
            else s.copyStep c t 3 l l.agd l.agd2
          | none => s.reservedStep at_ 3)
        | 4 => (match x.sact with
          | some l => if l.verb = 1 then s.stStep c t l else s.copyStep c t 4 l l.agd2 l.agd
          | none => s.reservedStep at_ 4)
        | n => s.reservedStep at_ n)

/-! ### Completion (R163, R248) -/

/-- The n-th open access of a slot. -/
def Tile.accAt (t : Tile) (slot n : Nat) : Option Access := (t.accs.filter (fun a => a.slot = slot))[n]?

/-- Fill one entry that waits for its half of a line; one whose data are undefined takes a free value (R134). -/
def State.fillDest (s : State) (c : Nat) (d : Dest) (line : BitVec 1024) : State :=
  if (s.tile c d.tile).spoiltAt d.queue d.id then
    let (v, s) := s.freeEntry
    s.onTile c d.tile (fun x => x.fill d.queue d.id v)
  else s.onTile c d.tile (fun x => x.fill d.queue d.id (line.extractLsb' (512 * d.half) 512))

/-- Fill the entries that wait for a line read by tile t in a clause; the other tiles that shared the read have it (R208). -/
def State.fillDests (s : State) (c t seq : Nat) (ds : List Dest) (line : BitVec 1024) : State :=
  ds.foldl (fun s d =>
    let s := s.fillDest c d line
    if d.tile ≠ t && d.half = 0 then s.onTile c d.tile (fun x => { x with shared := x.shared.erase seq }) else s) s

/-- An error that the storage's code met in a read: class 3 in a shelf, class 4 in a larder (Table 15-1). A corrected error of a
larder line counts in the tile that reads it (DESIGN CHOICE, log 47: the manual names no counter for it). -/
def State.readUpset (s : State) (c t : Nat) (a : Access) (u : Upset) : State :=
  match u, a.rd with
  | .uncorrectable, some (.here x) =>
    if x < 2 ^ 40 then s.tileFault c t 3 0 else s.clusterFault c 4 0
  | .uncorrectable, _ => s
  | u, _ => s.upset c t u

/-- READ_RETURN: a read's data are in and can be popped, or go on to be written (R248); a stopped run's are discarded
(R295). -/
def execReadReturn (at_ : Place) (slot : Fin 6) (idx : Nat) (u : Upset) (s : State) : Out :=
  let c := at_.cl.val
  let t := at_.tile.val
  let x := s.tile c t
  match x.accAt slot.val idx with
  | none => .next s
  | some a =>
    if a.rd.isNone || slot.val = 2 || a.ctr.isSome || !a.arrived || !x.clear a || !s.canSend (a.wr.getD .suppressed) then .next s
    else
      let s := (s.serveBank c a).readUpset c t a u
      if upsetStops u && (s.cluster c).phase = .stopped then .next (s.onTile c t (fun x => x.endAcc a.id))
      else
        let (line, s) := s.readData c t a
        match a.wr with
        | none => .next ((s.onTile c t (fun x => x.endAcc a.id)).fillDests c t a.seq a.dests line)
        | some w =>
          let b := { a with rd := none, data := line, have_ := 0, granted := w.far }
          let s := s.onTile c t (fun x => { x with accs := replaceIf (fun o => o.id = a.id) (fun _ => b) x.accs })
          .next (if w.far then s.sendAccess c t b else s)

/-- Granules of an access. -/
def Access.grans (a : Access) : Nat := (a.width + 63) / 64

/-- WRITE_VISIBLE: a write becomes visible to later ordered accesses (R163, R248): a local one lands now, one to the cellar
or another die has its answer. -/
def execWriteVisible (at_ : Place) (slot : Fin 6) (idx : Nat) (s : State) : Out :=
  let c := at_.cl.val
  let t := at_.tile.val
  let x := s.tile c t
  match x.accAt slot.val idx with
  | none => .next s
  | some a =>
    if a.rd.isSome then .next s
    else
      match a.wr with
      | some (.here p) =>
        if !x.clear a then .next s
        else
          let s := s.serveBank c a
          let (d, s) := if s.writeClash c t a then s.freeLine else (a.data, s)
          .next ((s.onTile c t (fun x => x.endAcc a.id)).putNat p a.width d.toNat)
      | some .suppressed => .next (s.onTile c t (fun x => x.endAcc a.id))
      | some (.cellar _) => .next (if a.grans ≤ a.have_ then s.onTile c t (fun x => x.endAcc a.id) else s)
      | some (.remote _ _ _ _ _) => .next (if a.have_ ≠ 0 then s.onTile c t (fun x => x.endAcc a.id) else s)
      | none => .next (s.onTile c t (fun x => x.endAcc a.id))

end Sys2Proof.Machine
end

