-- ==== Sys2Proof/Machine/Sync.lean ====
section
/-! DEFINITION. The sync slot (R161 to R164, R211). -/
namespace Sys2Proof.Machine

/-- QUEUE of a sync field. -/
def yQueue (f : Nat) : Nat := bitsN f 9 4
/-- TVAL of a sync field. -/
def yTval (f : Nat) : Nat := bitsN f 13 4

/-- Entries of a queue that can be popped. -/
def Tile.level (t : Tile) (q : Nat) : Nat := ((t.queue q).takeWhile (fun e => e.ready)).length

/-- A sync field waits first for its drained slots, then for its verb's condition (R163, R281). -/
def syncWait (cond : Nat → Clause → Tile → Bool) (t : Tile) (f : Nat) : Wait :=
  match t.nextClause 5 with
  | none => .busy
  | some cl =>
    if !t.drained cl.seq (bitsN f 17 5) then .stall 18
    else if cond f cl t then .go
    else .stall 17

/-- Issue of a sync verb: what it drained and held orders accesses from now on (R165). -/
def State.syncVerb (s : State) (p : Place) (verb : Nat) (cond : Nat → Clause → Tile → Bool) : State :=
  s.issueAs p 5 verb (syncWait cond) (fun s cl f _ =>
    s.onTile p.cl.val p.tile.val (fun x =>
      { x with syncs := x.syncs ++ [{ seq := cl.seq, drain := bitsN f 17 5, hold := bitsN f 4 5 }] }))

/-- WAITT (R162). -/
def execWaitt (at_ : Place) (s : State) : Out :=
  .next (s.syncVerb at_ 1 (fun f _ t =>
    match t.head (yQueue f) with
    | some e => e.tok.toNat = yTval f
    | none => false))

/-- WAITNT (R162). -/
def execWaitnt (at_ : Place) (s : State) : Out :=
  .next (s.syncVerb at_ 2 (fun f _ t =>
    match t.head (yQueue f) with
    | some e => e.tok.toNat ≠ yTval f
    | none => false))

/-- DRAIN (R162, R163). -/
def execDrain (at_ : Place) (s : State) : Out := .next (s.syncVerb at_ 3 (fun _ _ _ => true))

/-- WAITN (R211). -/
def execWaitn (at_ : Place) (s : State) : Out :=
  .next (s.syncVerb at_ 4 (fun f _ t => decide (4 * (yTval f + 1) ≤ t.level (yQueue f))))

/-- WAITF (R211). -/
def execWaitf (at_ : Place) (s : State) : Out :=
  .next (s.syncVerb at_ 5 (fun f _ t => decide (4 * (yTval f + 1) ≤ t.room (yQueue f))))

/-- WAITP (R211). -/
def execWaitp (at_ : Place) (s : State) : Out :=
  .next (s.syncVerb at_ 6 (fun f _ t => t.pred (yTval f % 4) != bitN (yTval f) 2))

/-- Whether an EXT of a clause before n that did not act has zero entries still to push into XQ (R175, R211). -/
def Tile.owesZeros (t : Tile) (n : Nat) : Bool :=
  match t.vact with
  | none => false
  | some v => vVerb v.fld.toNat = 0x40 && !v.acts && v.zeros ≠ 0 && decide (v.seq < n)

/-- WAITX: every EXT of an earlier clause has all its result entries in XQ (R211). -/
def execWaitx (at_ : Place) (s : State) : Out :=
  .next (s.syncVerb at_ 7 (fun _ cl t => t.extOwed.all (fun e => decide (cl.seq ≤ e.seq)) && !t.owesZeros cl.seq))

end Sys2Proof.Machine
end

