-- ==== Sys2Proof/Machine/Dispatch.lean ====
section
/-! DEFINITION. The one dispatch from commands to their meanings. -/
namespace Sys2Proof.Machine

/-- What a command does to everything but the queue. -/
def exec (i : Instr) (s : State) : Host.Outcome State Fault Refusal :=
  match i with
  | .ctxCreate port b => Sys2Proof.Machine.execCtxCreate port b s
  | .ctxReset port b => Sys2Proof.Machine.execCtxReset port b s
  | .ctxTeardown port b => Sys2Proof.Machine.execCtxTeardown port b s
  | .heartbeat port b => Sys2Proof.Machine.execHeartbeat port b s
  | .queueOpen port b => Sys2Proof.Machine.execQueueOpen port b s
  | .queueClose port b => Sys2Proof.Machine.execQueueClose port b s
  | .objAlloc port b => Sys2Proof.Machine.execObjAlloc port b s
  | .objFree port b => Sys2Proof.Machine.execObjFree port b s
  | .refAdd port b => Sys2Proof.Machine.execRefAdd port b s
  | .refDrop port b => Sys2Proof.Machine.execRefDrop port b s
  | .pin port b => Sys2Proof.Machine.execPin port b s
  | .unpin port b => Sys2Proof.Machine.execUnpin port b s
  | .share port b => Sys2Proof.Machine.execShare port b s
  | .descRead port b => Sys2Proof.Machine.execDescRead port b s
  | .submit port b wd => Sys2Proof.Machine.execSubmit port b wd s
  | .fenceSignal port b => Sys2Proof.Machine.execFenceSignal port b s
  | .ctlRd port b => Sys2Proof.Machine.execCtlRd port b s
  | .ctlWr port b => Sys2Proof.Machine.execCtlWr port b s
  | .writeDataBeat port w => Sys2Proof.Machine.execWriteDataBeat port w s
  | .wdTimeout port => Sys2Proof.Machine.execWdTimeout port s
  | .answerOffer port => Sys2Proof.Machine.execAnswerOffer port s
  | .respTimeout port => Sys2Proof.Machine.execRespTimeout port s
  | .frontClear port => Sys2Proof.Machine.execFrontClear port s
  | .beatWithdrawn port => Sys2Proof.Machine.execBeatWithdrawn port s
  | .irqPulse port line => Sys2Proof.Machine.execIrqPulse port line s
  | .identity nonce => Sys2Proof.Machine.execIdentity nonce s
  | .mgmtCtlRd sess addr => Sys2Proof.Machine.execMgmtCtlRd sess addr s
  | .mgmtCtlWr sess addr val => Sys2Proof.Machine.execMgmtCtlWr sess addr val s
  | .imageWrite sess hdr segs => Sys2Proof.Machine.execImageWrite sess hdr segs s
  | .shapeLoad sess hdr body => Sys2Proof.Machine.execShapeLoad sess hdr body s
  | .restart sess => Sys2Proof.Machine.execRestart sess s
  | .keySet sess slot key => Sys2Proof.Machine.execKeySet sess slot key s
  | .keyClear sess slot => Sys2Proof.Machine.execKeyClear sess slot s
  | .anchorSet sess digest => Sys2Proof.Machine.execAnchorSet sess digest s
  | .parcelOpen sess owner src nslice slices => Sys2Proof.Machine.execParcelOpen sess owner src nslice slices s
  | .parcelOpenDone readOk => Sys2Proof.Machine.execParcelOpenDone readOk s
  | .resume sess => Sys2Proof.Machine.execResume sess s
  | .keyExchange valid root roles => Sys2Proof.Machine.execKeyExchange valid root roles s
  | .finish sess ok => Sys2Proof.Machine.execFinish sess ok s
  | .endSession sess => Sys2Proof.Machine.execEndSession sess s
  | .sessionTimeout sess => Sys2Proof.Machine.execSessionTimeout sess s
  | .lockoutEnd => Sys2Proof.Machine.execLockoutEnd s
  | .endpointWatchdogMiss => Sys2Proof.Machine.execEndpointWatchdogMiss s
  | .fallbackEnd => Sys2Proof.Machine.execFallbackEnd s
  | .nop at_ slot => Sys2Proof.Machine.execNop at_ slot s
  | .seti at_ => Sys2Proof.Machine.execSeti at_ s
  | .addi at_ => Sys2Proof.Machine.execAddi at_ s
  | .shli at_ => Sys2Proof.Machine.execShli at_ s
  | .ori at_ => Sys2Proof.Machine.execOri at_ s
  | .ctMov at_ => Sys2Proof.Machine.execCtMov at_ s
  | .ctAdd at_ => Sys2Proof.Machine.execCtAdd at_ s
  | .ctSub at_ => Sys2Proof.Machine.execCtSub at_ s
  | .ctMul at_ => Sys2Proof.Machine.execCtMul at_ s
  | .and_ at_ => Sys2Proof.Machine.execAnd at_ s
  | .or_ at_ => Sys2Proof.Machine.execOr at_ s
  | .xor at_ => Sys2Proof.Machine.execXor at_ s
  | .shl at_ => Sys2Proof.Machine.execShl at_ s
  | .shr at_ => Sys2Proof.Machine.execShr at_ s
  | .info at_ => Sys2Proof.Machine.execInfo at_ s
  | .setab at_ => Sys2Proof.Machine.execSetab at_ s
  | .getab at_ => Sys2Proof.Machine.execGetab at_ s
  | .setcp at_ => Sys2Proof.Machine.execSetcp at_ s
  | .setk at_ => Sys2Proof.Machine.execSetk at_ s
  | .ldw at_ => Sys2Proof.Machine.execLdw at_ s
  | .ldwWordArrive at_ => Sys2Proof.Machine.execLdwWordArrive at_ s
  | .stw at_ => Sys2Proof.Machine.execStw at_ s
  | .alloc at_ => Sys2Proof.Machine.execAlloc at_ s
  | .free at_ => Sys2Proof.Machine.execFree at_ s
  | .bind at_ => Sys2Proof.Machine.execBind at_ s
  | .avail at_ => Sys2Proof.Machine.execAvail at_ s
  | .allocatorResultArrive at_ => Sys2Proof.Machine.execAllocatorResultArrive at_ s
  | .mov at_ => Sys2Proof.Machine.execMov at_ s
  | .cvt at_ => Sys2Proof.Machine.execCvt at_ s
  | .cvtb4 at_ => Sys2Proof.Machine.execCvtb4 at_ s
  | .decb4 at_ => Sys2Proof.Machine.execDecb4 at_ s
  | .add at_ => Sys2Proof.Machine.execAdd at_ s
  | .sub at_ => Sys2Proof.Machine.execSub at_ s
  | .mul at_ => Sys2Proof.Machine.execMul at_ s
  | .fma at_ => Sys2Proof.Machine.execFma at_ s
  | .min at_ => Sys2Proof.Machine.execMin at_ s
  | .max at_ => Sys2Proof.Machine.execMax at_ s
  | .abs at_ => Sys2Proof.Machine.execAbs at_ s
  | .neg at_ => Sys2Proof.Machine.execNeg at_ s
  | .cmp at_ => Sys2Proof.Machine.execCmp at_ s
  | .sel at_ => Sys2Proof.Machine.execSel at_ s
  | .div at_ => Sys2Proof.Machine.execDiv at_ s
  | .sfu at_ => Sys2Proof.Machine.execSfu at_ s
  | .rsum at_ => Sys2Proof.Machine.execRsum at_ s
  | .rmax at_ => Sys2Proof.Machine.execRmax at_ s
  | .rmin at_ => Sys2Proof.Machine.execRmin at_ s
  | .scale at_ => Sys2Proof.Machine.execScale at_ s
  | .trn at_ => Sys2Proof.Machine.execTrn at_ s
  | .iadd at_ => Sys2Proof.Machine.execIadd at_ s
  | .isub at_ => Sys2Proof.Machine.execIsub at_ s
  | .imul at_ => Sys2Proof.Machine.execImul at_ s
  | .iand at_ => Sys2Proof.Machine.execIand at_ s
  | .ior at_ => Sys2Proof.Machine.execIor at_ s
  | .ixor at_ => Sys2Proof.Machine.execIxor at_ s
  | .ishl at_ => Sys2Proof.Machine.execIshl at_ s
  | .ishr at_ => Sys2Proof.Machine.execIshr at_ s
  | .ext at_ => Sys2Proof.Machine.execExt at_ s
  | .extResult cl tile epoch data => Sys2Proof.Machine.execExtResult cl tile epoch data s
  | .mma at_ => Sys2Proof.Machine.execMma at_ s
  | .mmaKStep at_ => Sys2Proof.Machine.execMmaKStep at_ s
  | .escapeEntryArrive at_ => Sys2Proof.Machine.execEscapeEntryArrive at_ s
  | .checksumVerdict at_ v u => Sys2Proof.Machine.execChecksumVerdict at_ v u s
  | .blockDrain at_ => Sys2Proof.Machine.execBlockDrain at_ s
  | .ld at_ => Sys2Proof.Machine.execLd at_ s
  | .ldb at_ => Sys2Proof.Machine.execLdb at_ s
  | .ldz at_ => Sys2Proof.Machine.execLdz at_ s
  | .fill at_ => Sys2Proof.Machine.execFill at_ s
  | .st at_ => Sys2Proof.Machine.execSt at_ s
  | .spill at_ => Sys2Proof.Machine.execSpill at_ s
  | .slotStep at_ slot u => Sys2Proof.Machine.execSlotStep at_ slot u s
  | .readReturn at_ slot idx u => Sys2Proof.Machine.execReadReturn at_ slot idx u s
  | .writeVisible at_ slot idx => Sys2Proof.Machine.execWriteVisible at_ slot idx s
  | .waitt at_ => Sys2Proof.Machine.execWaitt at_ s
  | .waitnt at_ => Sys2Proof.Machine.execWaitnt at_ s
  | .drain at_ => Sys2Proof.Machine.execDrain at_ s
  | .waitn at_ => Sys2Proof.Machine.execWaitn at_ s
  | .waitf at_ => Sys2Proof.Machine.execWaitf at_ s
  | .waitp at_ => Sys2Proof.Machine.execWaitp at_ s
  | .waitx at_ => Sys2Proof.Machine.execWaitx at_ s
  | .paragraphLoad cl => Sys2Proof.Machine.execParagraphLoad cl s
  | .clauseBroadcast cl => Sys2Proof.Machine.execClauseBroadcast cl s
  | .loop cl => Sys2Proof.Machine.execLoop cl s
  | .endl cl => Sys2Proof.Machine.execEndl cl s
  | .mask cl => Sys2Proof.Machine.execMask cl s
  | .send cl => Sys2Proof.Machine.execSend cl s
  | .recv cl => Sys2Proof.Machine.execRecv cl s
  | .endPara cl => Sys2Proof.Machine.execEndPara cl s
  | .mailAvailable cl idx => Sys2Proof.Machine.execMailAvailable cl idx s
  | .barrierArrive cl => Sys2Proof.Machine.execBarrierArrive cl s
  | .commaRelease cl => Sys2Proof.Machine.execCommaRelease cl s
  | .semicolonRelease region => Sys2Proof.Machine.execSemicolonRelease region s
  | .fullStopRelease task => Sys2Proof.Machine.execFullStopRelease task s
  | .clusterEnd cl => Sys2Proof.Machine.execClusterEnd cl s
  | .taskCommit task cut => Sys2Proof.Machine.execTaskCommit task cut s
  | .commitRedo task => Sys2Proof.Machine.execCommitRedo task s
  | .taskDispatch q => Sys2Proof.Machine.execTaskDispatch q s
  | .followOnStart q cl => Sys2Proof.Machine.execFollowOnStart q cl s
  | .stageCopyDone cl ok => Sys2Proof.Machine.execStageCopyDone cl ok s
  | .wipeDone cl => Sys2Proof.Machine.execWipeDone cl s
  | .budgetExpire cl => Sys2Proof.Machine.execBudgetExpire cl s
  | .waitLimitExpire q => Sys2Proof.Machine.execWaitLimitExpire q s
  | .waitCycleScan => Sys2Proof.Machine.execWaitCycleScan s
  | .heartbeatMiss m => Sys2Proof.Machine.execHeartbeatMiss m s
  | .fencePoison context => Sys2Proof.Machine.execFencePoison context s
  | .reclaimDone slot => Sys2Proof.Machine.execReclaimDone slot s
  | .abortDrainEnd task => Sys2Proof.Machine.execAbortDrainEnd task s
  | .spareCopyDone cl badWord => Sys2Proof.Machine.execSpareCopyDone cl badWord s
  | .rerunRelease task => Sys2Proof.Machine.execRerunRelease task s
  | .spareRelease cl => Sys2Proof.Machine.execSpareRelease cl s
  | .spareCopyBackDone cl ok => Sys2Proof.Machine.execSpareCopyBackDone cl ok s
  | .networkFault task => Sys2Proof.Machine.execNetworkFault task s
  | .cellarStepGrant => Sys2Proof.Machine.execCellarStepGrant s
  | .cellarPortArbitrate port => Sys2Proof.Machine.execCellarPortArbitrate port s
  | .cellarReadResponse port tag err data => Sys2Proof.Machine.execCellarReadResponse port tag err data s
  | .cellarWriteResponse port tag err => Sys2Proof.Machine.execCellarWriteResponse port tag err s
  | .cellarTagTimeout port tag => Sys2Proof.Machine.execCellarTagTimeout port tag s
  | .qstreamWrite who q word val => Sys2Proof.Machine.execQstreamWrite who q word val s
  | .shapeApply => Sys2Proof.Machine.execShapeApply s
  | .powerGood head inpkg => Sys2Proof.Machine.execPowerGood head inpkg s
  | .rootLock => Sys2Proof.Machine.execRootLock s
  | .powerStateEnd idOk => Sys2Proof.Machine.execPowerStateEnd idOk s
  | .chainStream pos segs => Sys2Proof.Machine.execChainStream pos segs s
  | .segmentReceived last => Sys2Proof.Machine.execSegmentReceived last s
  | .frameWrite verified => Sys2Proof.Machine.execFrameWrite verified s
  | .gapLimitExpire => Sys2Proof.Machine.execGapLimitExpire s
  | .chainCodingError => Sys2Proof.Machine.execChainCodingError s
  | .chainRestart => Sys2Proof.Machine.execChainRestart s
  | .doneHigh => Sys2Proof.Machine.execDoneHigh s
  | .doneLate => Sys2Proof.Machine.execDoneLate s
  | .releaseStage => Sys2Proof.Machine.execReleaseStage s
  | .reloadRequest who region => Sys2Proof.Machine.execReloadRequest who region s
  | .reloadDrainEnd => Sys2Proof.Machine.execReloadDrainEnd s
  | .reloadLoadDone fabricOk shellsOk => Sys2Proof.Machine.execReloadLoadDone fabricOk shellsOk s
  | .mapScrubFrame flips => Sys2Proof.Machine.execMapScrubFrame flips s
  | .privScrubFrame flips => Sys2Proof.Machine.execPrivScrubFrame flips s
  | .extEndRead cl index flips => Sys2Proof.Machine.execExtEndRead cl index flips s
  | .scrubVote copy val => Sys2Proof.Machine.execScrubVote copy val s
  | .scrubRefresh => Sys2Proof.Machine.execScrubRefresh s
  | .shellReloadDone ok => Sys2Proof.Machine.execShellReloadDone ok s
  | .coolantLoss => Sys2Proof.Machine.execCoolantLoss s
  | .coolantReturn => Sys2Proof.Machine.execCoolantReturn s
  | .neighbourEval temps supplies => Sys2Proof.Machine.execNeighbourEval temps supplies s
  | .thermalTrip region => Sys2Proof.Machine.execThermalTrip region s
  | .droopTrip region supply => Sys2Proof.Machine.execDroopTrip region supply s
  | .droopEnd region => Sys2Proof.Machine.execDroopEnd region s
  | .governorWindow milliwatts => Sys2Proof.Machine.execGovernorWindow milliwatts s
  | .powerWindow milliwatts => Sys2Proof.Machine.execPowerWindow milliwatts s
  | .domainOn who domain => Sys2Proof.Machine.execDomainOn who domain s
  | .domainOff who domain => Sys2Proof.Machine.execDomainOff who domain s
  | .domainSeqDone domain => Sys2Proof.Machine.execDomainSeqDone domain s
  | .capacityWithdraw who wholeDie region => Sys2Proof.Machine.execCapacityWithdraw who wholeDie region s
  | .capacityRestore who wholeDie region => Sys2Proof.Machine.execCapacityRestore who wholeDie region s
  | .capacityTakeEffect => Sys2Proof.Machine.execCapacityTakeEffect s
  | .cread src tag addr two => Sys2Proof.Machine.execCread src tag addr two s
  | .cwrite src tag addr two data => Sys2Proof.Machine.execCwrite src tag addr two data s
  | .oread src tag ver slot off two => Sys2Proof.Machine.execOread src tag ver slot off two s
  | .owrite src tag ver slot off two data => Sys2Proof.Machine.execOwrite src tag ver slot off two data s
  | .rdata src tag err data => Sys2Proof.Machine.execRdata src tag err data s
  | .wack src tag err => Sys2Proof.Machine.execWack src tag err s
  | .mail src task rel msg => Sys2Proof.Machine.execMail src task rel msg s
  | .arrive src task epoch body => Sys2Proof.Machine.execArrive src task epoch body s
  | .release src task body => Sys2Proof.Machine.execRelease src task body s
  | .abort src body => Sys2Proof.Machine.execAbort src body s
  | .fence src handle val => Sys2Proof.Machine.execFence src handle val s
  | .dispatchReserve src part count urgent => Sys2Proof.Machine.execDispatchReserve src part count urgent s
  | .dispatchStart src m => Sys2Proof.Machine.execDispatchStart src m s
  | .dispatchCancel body => Sys2Proof.Machine.execDispatchCancel body s
  | .dispatchIdle src part => Sys2Proof.Machine.execDispatchIdle src part s
  | .spanFrameReceive port check heads seq ack => Sys2Proof.Machine.execSpanFrameReceive port check heads seq ack s
  | .spanNack port seq => Sys2Proof.Machine.execSpanNack port seq s
  | .spanReplayTimeout port => Sys2Proof.Machine.execSpanReplayTimeout port s
  | .spanTrainStep port peer npkg family sig keysOk lat => Sys2Proof.Machine.execSpanTrainStep port peer npkg family sig keysOk lat s
  | .spanStateTimeout port => Sys2Proof.Machine.execSpanStateTimeout port s
  | .retrainLimitExpire link => Sys2Proof.Machine.execRetrainLimitExpire link s
  | .linkLost link => Sys2Proof.Machine.execLinkLost link s
  | .seamRetrain => Sys2Proof.Machine.execSeamRetrain s
  | .broadcastWrite who addr val => Sys2Proof.Machine.execBroadcastWrite who addr val s
  | .groupWrite who addr val => Sys2Proof.Machine.execGroupWrite who addr val s
  | .ctxStallRead who context cause => Sys2Proof.Machine.execCtxStallRead who context cause s
  | .tileHealthClear who cl tile => Sys2Proof.Machine.execTileHealthClear who cl tile s
  | .fullSeenClear who => Sys2Proof.Machine.execFullSeenClear who s
  | .expiredClear who m => Sys2Proof.Machine.execExpiredClear who m s
  | .rejectClear who => Sys2Proof.Machine.execRejectClear who s
  | .lostClear who => Sys2Proof.Machine.execLostClear who s
  | .vbatLostClear who => Sys2Proof.Machine.execVbatLostClear who s
  | .ctlErrClear who f => Sys2Proof.Machine.execCtlErrClear who f s
  | .vbatKeyLoss => Sys2Proof.Machine.execVbatKeyLoss s
  | .registerWrite who addr val => Sys2Proof.Machine.execRegisterWrite who addr val s
  | .powerLoss => Sys2Proof.Machine.execPowerLoss s
  | .seamActive => Sys2Proof.Machine.execSeamActive s
  | .dispatchAnswer src count => Sys2Proof.Machine.execDispatchAnswer src count s
  | .reservedOpCommand port b op => Sys2Proof.Machine.execReservedOpCommand port b op s
  | .challenge => Sys2Proof.Machine.execChallenge s
  | .spdmHeartbeat sess => Sys2Proof.Machine.execSpdmHeartbeat sess s
  | .probeSelect pin sel => Sys2Proof.Machine.execProbeSelect pin sel s

end Sys2Proof.Machine
end

