-- ==== Sys2Proof/Machine/Time.lean ====
section
/-! DEFINITION. What happens when no command waits: one MCLK cycle passes (log 2). -/
namespace Sys2Proof.Machine

/-- ACLK cycles of a region in the present MCLK cycle (R471). -/
def State.aclkNow (s : State) (r : Nat) : Nat := s.aclkIn r (s.now + 1) - s.aclkIn r s.now

/-- A cluster that waits for its stage copy, or for the other clusters' copies, counts the cycles under cause 27 (R280, R291). -/
def State.countStage (s : State) (c : Nat) : State :=
  if (s.cluster c).phase = .staging || (s.cluster c).phase = .ready then s.stallBy c 27 (s.aclkNow (c / 4)) else s

/-- The beat that an extension port offers passes when the licensee's logic holds IN_READY high, which a free value tells; IN_VALID
is low while the region is loaded (R352, R356; log 38). -/
def State.extIssue (s : State) (c : Nat) : State :=
  match (s.cluster c).extIn with
  | [] => s
  | _ :: r =>
    let (w, s) := s.freeWord
    if w.getLsbD 0 && !Tbl.get false s.reload.held (c / 4) then s.onCluster c (fun x => { x with extIn := r }) else s

/-- What one MCLK cycle does to a cluster: it counts its wait for a stage copy, its sequencer fetches 32 clauses ahead (128 bytes in
each of eight SCLK cycles, R219), its extension port moves a beat, and a run is charged its eight SCLK cycles (Table 17-4, R471:
MCLK is 125 MHz). -/
def State.tickCluster (s : State) (c : Nat) : State :=
  let s := ((s.countStage c).fetchAhead c 32).extIssue c
  if (s.cluster c).phase.counts then s.chargeCl c 4000 else s

/-- One MCLK cycle: the count goes on, the clusters go on, start messages and power domains that waited go on (R295, R478), the
attic's stream is read, a release in stages ends (R390, R403), and the fabric is clocked (R359). -/
def State.tick (s : State) : State :=
  let s := { s with now := s.now + 1 }
  ((((s.each (List.range 32) State.tickCluster).tryStarts).advanceDomains).atticRead).endRelease.clockFabric

end Sys2Proof.Machine
end

