-- ==== Sys2Proof/WellFormed.lean ====
section
/-! DEFINITION. Which commands the manual's fields can spell: those that carry no more segments or slices than the field that
counts them. -/
namespace Sys2Proof

/-- Whether the manual's fields can spell a command: an image header has places for 16 segments (Table 13-7), LEFT of a chain
stream is a byte (R390), a parcel opening names 1 to 64 slices (R454). -/
def Instr.wf : Instr → Bool
  | .imageWrite _ _ segs => segs.length ≤ 16
  | .chainStream _ segs => segs.length ≤ 255
  | .parcelOpen _ _ _ n slices => slices.length = n && 1 ≤ n && n ≤ 64
  | _ => true

end Sys2Proof
end

