-- ==== Sys2Proof/Safety.lean ====
section
/-! DEFINITION. The terms that statements use: what goes on, which field can issue, and what a command leaves alone. -/
namespace Sys2Proof.Machine

/-- A state whose next step goes on. -/
def State.goesOn (s : State) : Prop := ∃ t, step s = .next t

/-- A state whose waiting commands can all be sent. -/
def State.wellQueued (s : State) : Prop := ∀ c ∈ s.pending, c.wf = true

/-- The tile of a place. -/
def State.at_ (s : State) (p : Place) : Tile := s.tile p.cl.val p.tile.val

/-- A slot of a tile can take up a legal field: its cluster runs, the tile is there, the slot's next field, in clause `cl`, has
this verb, no sync field holds it, and it is legal (R135, R149, R163, R176). -/
def State.CanIssue (s : State) (p : Place) (slot verb : Nat) (cl : Clause) : Prop :=
  (s.cluster p.cl.val).phase = .running ∧ p.tile.val < s.tpc ∧ (s.at_ p).nextClause slot = some cl ∧
    verbOf slot (slotField slot cl.word) = verb ∧ (s.at_ p).holds cl slot = false ∧
    s.fieldCause p.cl.val p.tile.val slot (slotField slot cl.word) = none

/-- A command changes one tile alone, and of tasks at most the WARN flag (R150). -/
def State.OnlyTile (s t : State) (p : Place) : Prop :=
  t = { s with tiles := t.tiles, tasks := t.tasks } ∧
    (∀ k, k ≠ s.tileKey p.cl.val p.tile.val → Tbl.get Tile.fresh t.tiles k = Tbl.get Tile.fresh s.tiles k) ∧
    (∀ k, (t.task? k).map (fun x => { x with warn := false }) = (s.task? k).map (fun x => { x with warn := false })) ∧
    ∀ a, memGet t.mem a = memGet s.mem a

/-- A tile after one slot has taken up its next field: that slot has issued one more, the others as many as before, and the
clause queue holds the clauses that some slot has not reached (R135). -/
def Tile.IssuedOne (x y : Tile) (slot : Nat) : Prop :=
  y.issuedBy slot = x.issuedBy slot + 1 ∧ (∀ k, k ≠ slot → y.issuedBy k = x.issuedBy k) ∧
    y.clauseQ = x.clauseQ.filter (fun c => (List.range 6).any (fun k => y.issuedBy k ≤ c.seq))

end Sys2Proof.Machine
end

