-- ==== Sys2Proof/Certificates/Slice0/Obligations.lean ====
section
/-! DEFINITION. The statements for the provers. -/
open Sys2Proof Sys2Proof.Machine

/-- A counter verb completes and writes one value to CT[CDST] where its field acts; every other counter, every register of
the tile that R182 does not name, every other tile and all memory stay (R182). `val` is the value, of the state, the place
and the field. -/
def CounterResult (i : Place → Instr) (verb : Nat) (val : State → Place → Nat → Word) : Prop :=
  ∀ (s : State) (p : Place) (cl : Clause), s.CanIssue p 0 verb cl →
    (∀ w ∈ (s.at_ p).ctWait, w.2 ∉ countersOf (slotField 0 cl.word)) →
    ∃ t, exec (i p) s = .next t ∧ s.OnlyTile t p ∧ (s.at_ p).IssuedOne (t.at_ p) 0 ∧
      (∀ n, (t.at_ p).counter n =
        if cl.acts 0 p.tile.val (s.at_ p) = true ∧ n = bitsN (slotField 0 cl.word) 5 3 then val s p (slotField 0 cl.word)
        else (s.at_ p).counter n) ∧
      t.at_ p = { s.at_ p with ct := (t.at_ p).ct, issued := (t.at_ p).issued, clauseQ := (t.at_ p).clauseQ,
                               errWarn := (t.at_ p).errWarn }

/-- The counter verbs of Table 07-1 that compute: SETI, ADDI with IMM7 from −64 to 63, SHLI by IMM7[4:0], ORI with IMM7
zero-extended; the register forms wrap modulo 2^32, and shifts take their count modulo 32; GETAB reads a base register, INFO the
five identity items (Table 07-2). -/
def Obligations.CounterArithmetic : Prop :=
  ((CounterResult .seti 0x01 (fun _ _ f => (BitVec.ofNat 7 (bitsN f 17 7)).signExtend 32) ∧
    CounterResult .addi 0x02 (fun s p f =>
      (s.at_ p).counter (bitsN f 8 3) + (BitVec.ofNat 7 (bitsN f 17 7)).signExtend 32) ∧
    CounterResult .shli 0x03 (fun s p f => BitVec.ofNat 32 (((s.at_ p).counter (bitsN f 8 3)).toNat * 2 ^ bitsN f 17 5)) ∧
    CounterResult .ori 0x04 (fun s p f => (s.at_ p).counter (bitsN f 8 3) ||| BitVec.ofNat 32 (bitsN f 17 7))) ∧
   (let d (s : State) (p : Place) (f : Nat) := (s.at_ p).counter (bitsN f 5 3)
    let c (s : State) (p : Place) (f : Nat) := (s.at_ p).counter (bitsN f 8 3)
    CounterResult .ctMov 0x05 c ∧
    CounterResult .ctAdd 0x06 (fun s p f => BitVec.ofNat 32 ((d s p f).toNat + (c s p f).toNat)) ∧
    CounterResult .ctSub 0x07 (fun s p f => BitVec.ofInt 32 ((d s p f).toNat - (c s p f).toNat)) ∧
    CounterResult .ctMul 0x08 (fun s p f => BitVec.ofNat 32 ((d s p f).toNat * (c s p f).toNat)) ∧
    CounterResult .and_ 0x09 (fun s p f => d s p f &&& c s p f) ∧
    CounterResult .or_ 0x0A (fun s p f => d s p f ||| c s p f) ∧
    CounterResult .xor 0x0B (fun s p f => d s p f ^^^ c s p f) ∧
    CounterResult .shl 0x0C (fun s p f => BitVec.ofNat 32 ((d s p f).toNat * 2 ^ ((c s p f).toNat % 32))) ∧
    CounterResult .shr 0x0D (fun s p f => BitVec.ofNat 32 ((d s p f).toNat / 2 ^ ((c s p f).toNat % 32))))) ∧
  (CounterResult .getab 0x10 (fun s p f => (s.at_ p).base (bitsN f 17 2)) ∧
   CounterResult .info 0x0E (fun s p f =>
     match bitsN f 17 7 with
     | 0 => BitVec.ofNat 32 p.tile.val
     | 1 => BitVec.ofNat 32 (s.cluster p.cl.val).rel
     | 2 => ((s.clusterTask p.cl.val).map (fun k => BitVec.ofNat 32 k.total)).getD 0
     | 3 => if bitN s.build.toNat 4 then 16 else 8
     | _ => ((s.clusterTask p.cl.val).map (fun k => k.seq)).getD 0))

/-- A verb completes by changing its own tile alone: `upd` says what becomes of the tile, given whether the field acts; the
slot has then issued one more field, and of CLAUSE_ERR only the count of WARN may have moved (R150). -/
def TileVerb (i : Place → Instr) (slot verb : Nat) (ready : Tile → Clause → Prop)
    (upd : State → Place → Clause → Bool → Tile → Tile) : Prop :=
  ∀ (s : State) (p : Place) (cl : Clause), s.CanIssue p slot verb cl → ready (s.at_ p) cl →
    ∃ t, exec (i p) s = .next t ∧ s.OnlyTile t p ∧ (s.at_ p).IssuedOne (t.at_ p) slot ∧
      t.at_ p = { upd s p cl (cl.acts slot p.tile.val (s.at_ p)) (s.at_ p) with
        issued := (t.at_ p).issued, clauseQ := (t.at_ p).clauseQ, errWarn := (t.at_ p).errWarn }

/-- A counter field does not wait: no counter it names awaits a word or a result (R185, R257). -/
def CounterReady (x : Tile) (cl : Clause) : Prop := ∀ w ∈ x.ctWait, w.2 ∉ countersOf (slotField 0 cl.word)

/-- SETAB, SETK and SETCP (Table 07-1, R183): a base register, a constant, and a comparator with its counter IMM7[5:3], its
relation IMM7[1:0], signed for IMM7[2], and the limit that the counter now holds. Nothing else of the tile changes. -/
def Obligations.CounterRegisters : Prop :=
  TileVerb .setab 0 0x0F CounterReady (fun _ _ cl acts x =>
    let f := slotField 0 cl.word
    if acts then { x with ab := Tbl.set (bitsN f 17 2) (x.counter (bitsN f 8 3)) x.ab } else x) ∧
  TileVerb .setk 0 0x12 CounterReady (fun _ _ cl acts x =>
    let f := slotField 0 cl.word
    if acts then { x with k := Tbl.set (bitsN f 5 3) (x.counter (bitsN f 8 3)) x.k } else x) ∧
  TileVerb .setcp 0 0x11 CounterReady (fun _ _ cl acts x =>
    let f := slotField 0 cl.word
    let c : Cmp := { ctr := bitsN f 20 3, limit := x.counter (bitsN f 8 3), rel := bitsN f 17 2, signed := bitN f 19 }
    if acts then { x with cp := Tbl.set (bitsN f 5 2) c x.cp } else x)

/-- What a comparator says of a counter `a` and a limit `b` under a relation, signed or not: 0 below, 1 at most, 2 equal, 3 not
equal (R124, R183). -/
def Compares (rel : Nat) (signed : Bool) (a b : Word) (bit : Bool) : Prop :=
  (rel = 0 → signed = false → (bit = true ↔ a.toNat < b.toNat)) ∧ (rel = 0 → signed = true → (bit = true ↔ a.toInt < b.toInt)) ∧
    (rel = 1 → signed = false → (bit = true ↔ a.toNat ≤ b.toNat)) ∧ (rel = 1 → signed = true → (bit = true ↔ a.toInt ≤ b.toInt)) ∧
    (rel = 2 → (bit = true ↔ a = b)) ∧ (rel = 3 → (bit = true ↔ a ≠ b))

/-- SETCP (R183): where its field acts, predicate bit CDST[1:0] of the tile is from then on the comparison of counter IMM7[5:3],
as it then stands, with the value that CT[CSRC] has at issue, under relation IMM7[1:0], signed for IMM7[2], whatever CDST[2] and
IMM7[6] are, for every later state of the tile that has these comparators. -/
def Obligations.Comparators : Prop :=
  (∀ (x : Tile) (n : Nat), let c := x.cmp n
    Compares c.rel c.signed (x.counter c.ctr) c.limit (x.pred n)) ∧
  ∀ (s : State) (p : Place) (cl : Clause), s.CanIssue p 0 0x11 cl → CounterReady (s.at_ p) cl → cl.acts 0 p.tile.val (s.at_ p) = true →
    let f := slotField 0 cl.word
    ∃ t, exec (.setcp p) s = .next t ∧ ∀ y : Tile, y.cp = (t.at_ p).cp →
      Compares (bitsN f 17 2) (bitN f 19) (y.counter (bitsN f 20 3)) ((s.at_ p).counter (bitsN f 8 3)) (y.pred (bitsN f 5 2))

/-- NOP of any slot issues with no effect but on its issue count; bits of the field outside VERB are counted by WARN, which
stops at 255, and flag the task (R149, R150). -/
def Obligations.NopIssues : Prop :=
  ∀ (s : State) (p : Place) (slot : Fin 6) (cl : Clause), s.CanIssue p slot.val 0 cl →
    (slot.val = 1 → (s.at_ p).vact = none) → (slot.val = 2 → ∀ b ∈ (s.at_ p).blocks, b.k = b.K) →
    (slot.val = 3 → (s.at_ p).lact = none) → (slot.val = 4 → (s.at_ p).sact = none) →
    ∃ t, exec (.nop p slot) s = .next t ∧ s.OnlyTile t p ∧ (s.at_ p).IssuedOne (t.at_ p) slot.val ∧
      t.at_ p = { s.at_ p with issued := (t.at_ p).issued, clauseQ := (t.at_ p).clauseQ, errWarn := (t.at_ p).errWarn } ∧
      (slot.val < 5 → (s.at_ p).errWarn ≤ 255 → (t.at_ p).errWarn =
        (let n := (s.at_ p).errWarn + (if slotField slot.val cl.word = 0 then 0 else 1)
         if 255 < n then 255 else n))

/-- A vector verb begins (R154, R181): a count CT[NCT] of 0 gives it no steps, else it has CT[NCT] steps, with its field, its
constants K[SRC1], K[AUX] and its base CT[EBC] read now; the slot must have finished its last verb. -/
def VectorBegins (i : Place → Instr) (verb : Nat) : Prop :=
  TileVerb i 1 verb (fun x _ => x.vact = none) (fun _ _ cl acts x =>
    let f := slotField 1 cl.word
    if (x.counter (bitsN f 35 3)).toNat = 0 then x else { x with vact := some (VAct.begin x cl f acts) })

/-- Every vector verb begins when its field issues. EXT begins too (R175, R181, R212, R213): each issue counts in the EXT issue count;
with a count of 0 it has no steps; one that acts is owed CT[EBC] results, in the order of issue. One that does not act pushes its own
zero entries, as many as it would be owed: that form is the model's choice (log 16). -/
def Obligations.VectorIssue : Prop :=
  (VectorBegins .mov 0x01 ∧ VectorBegins .cvt 0x02 ∧ VectorBegins .cvtb4 0x03 ∧ VectorBegins .decb4 0x04 ∧
   VectorBegins .add 0x08 ∧ VectorBegins .sub 0x09 ∧ VectorBegins .mul 0x0A ∧ VectorBegins .fma 0x0B ∧
   VectorBegins .min 0x0C ∧ VectorBegins .max 0x0D ∧ VectorBegins .abs 0x0E ∧ VectorBegins .neg 0x0F ∧
   VectorBegins .cmp 0x10 ∧ VectorBegins .sel 0x11 ∧ VectorBegins .div 0x14 ∧ VectorBegins .sfu 0x15 ∧
   VectorBegins .rsum 0x18 ∧ VectorBegins .rmax 0x19 ∧ VectorBegins .rmin 0x1A ∧ VectorBegins .scale 0x1C ∧
   VectorBegins .trn 0x1D ∧ VectorBegins .iadd 0x20 ∧ VectorBegins .isub 0x21 ∧ VectorBegins .imul 0x22 ∧
   VectorBegins .iand 0x23 ∧ VectorBegins .ior 0x24 ∧ VectorBegins .ixor 0x25 ∧ VectorBegins .ishl 0x26 ∧
   VectorBegins .ishr 0x27 ∧
   (∀ (x : Tile) (cl : Clause) (f : Nat) (acts : Bool),
     let v := VAct.begin x cl f acts
     v.fld = BitVec.ofNat 56 f ∧ v.seq = cl.seq ∧ v.addr = cl.addr ∧ v.acts = acts ∧
       v.left = (x.counter (bitsN f 35 3)).toNat ∧ v.konst1 = x.konst (bitsN f 11 4 % 8) ∧
       v.konst2 = x.konst (bitsN f 38 4 % 8) ∧ v.base = x.counter (bitsN f 53 3) ∧ v.elem = 0 ∧ v.out = [] ∧ v.acc = [])) ∧
  (TileVerb .ext 1 0x40 (fun x _ => x.vact = none) (fun _ _ cl acts x =>
     let f := slotField 1 cl.word
     let owed := (x.counter (bitsN f 53 3)).toNat
     if (x.counter (bitsN f 35 3)).toNat = 0 then { x with extCount := x.extCount + 1 }
     else
       { x with
         vact := some { VAct.begin x cl f acts with zeros := if acts then 0 else owed, flagged := true }
         extCount := x.extCount + 1
         extOwed := if acts = true ∧ owed ≠ 0 then
             x.extOwed ++ [{ owed := owed, tmode := bitsN f 24 2, tok := BitVec.ofNat 4 (bitsN f 20 4), srcTok := 0,
                             first := true, seq := cl.seq }]
           else x.extOwed }))

/-- MMA begins a block (R116, R154, R181, R201): K = CT[KCT] k steps under the mode word CT[MCT], both read now. It issues
once no earlier block still takes k steps and a bank is free of the two. -/
def Obligations.MatrixIssue : Prop :=
  TileVerb .mma 2 1 (fun x _ => (∀ b ∈ x.blocks, b.K ≤ b.k) ∧ x.blocks.length < 2) (fun _ _ cl acts x =>
    let f := slotField 2 cl.word
    { x with blocks := x.blocks ++ [
        { fld := BitVec.ofNat 40 f, mode := x.counter (bitsN f 34 3), K := (x.counter (bitsN f 31 3)).toNat, seq := cl.seq,
          addr := cl.addr, acts := acts, k := 0, aLeft := [], bLeft := [], ops := [], start := [], sco := [], sca := [],
          scb := [], gsa := [], gsb := [], gsFor := 0, sums := [], closed := 0, escArrived := true, escA := [], escB := [],
          tok := 0, out := [], filled := false, flagged := false }] })

/-- What a load or store verb holds as it begins (R155, R166): its steps NSTEP + 1 and the base registers of now. -/
def begun (x : Tile) (cl : Clause) (acts : Bool) (verb agd agd2 dst tok tmode steps : Nat) : LSAct :=
  { verb := verb, seq := cl.seq, addr := cl.addr, acts := acts, agd := agd, agd2 := agd2, dst := dst,
    tok := BitVec.ofNat 4 tok, tmode := tmode, left := steps, bases := [x.base 0, x.base 1, x.base 2, x.base 3], first := true,
    xfer := 0 }

/-- LD, LDB, LDZ, FILL, ST and SPILL begin (R155, R168, R207 to R210): with GRST the named descriptors' positions return to
zero, for FILL and SPILL of both. -/
def Obligations.LoadStoreIssue : Prop :=
  let load (verb : Nat) : State → Place → Clause → Bool → Tile → Tile := fun _ _ cl acts x =>
    let f := slotField 3 cl.word
    let x := if bitN f 19 = true ∧ verb ≠ 3 then x.grst (bitsN f 4 5) else x
    let x := if bitN f 19 = true ∧ verb = 4 then x.grst (bitsN f 36 5) else x
    { x with lact := some (begun x cl acts verb (bitsN f 4 5) (bitsN f 36 5) (bitsN f 9 4) (bitsN f 13 4) (bitsN f 17 2)
        (bitsN f 20 16 + 1)) }
  let store (verb : Nat) : State → Place → Clause → Bool → Tile → Tile := fun _ _ cl acts x =>
    let f := slotField 4 cl.word
    let x := if bitN f 13 = true then x.grst (bitsN f 4 5) else x
    let x := if bitN f 13 = true ∧ verb = 2 then x.grst (bitsN f 30 5) else x
    { x with sact := some (begun x cl acts verb (bitsN f 4 5) (bitsN f 30 5) (bitsN f 9 4) 0 0 (bitsN f 14 16 + 1)) }
  TileVerb .ld 3 1 (fun x _ => x.lact = none) (load 1) ∧ TileVerb .ldb 3 2 (fun x _ => x.lact = none) (load 2) ∧
  TileVerb .ldz 3 3 (fun x _ => x.lact = none) (load 3) ∧ TileVerb .fill 3 4 (fun x _ => x.lact = none) (load 4) ∧
  TileVerb .st 4 1 (fun x _ => x.sact = none) (store 1) ∧ TileVerb .spill 4 2 (fun x _ => x.sact = none) (store 2)

/-- A sync verb issues once the slots its DRAIN field names are drained and its own condition holds (R162, R163, R211); it
then holds back no slot any longer, and its DRAIN and HOLD fields order accesses from then on (R165). -/
def SyncIssues (i : Place → Instr) (verb : Nat) (cond : Tile → Clause → Nat → Prop) : Prop :=
  TileVerb i 5 verb
    (fun x cl => (∀ k, k < 5 → bitN (slotField 5 cl.word) (17 + k) = true → x.drainedSlot cl.seq k = true) ∧
      cond x cl (slotField 5 cl.word))
    (fun _ _ cl _ x =>
      { x with syncs := x.syncs ++ [{ seq := cl.seq, drain := bitsN (slotField 5 cl.word) 17 5,
                                      hold := bitsN (slotField 5 cl.word) 4 5 }] })

/-- The seven sync verbs (R162, R163, R211): WAITT waits for the token TVAL at the head of QUEUE, WAITNT for another one,
WAITN for 4 × (TVAL + 1) entries that can be popped, WAITF for as many free ones, WAITP for a predicate bit of the wanted
value, WAITX until the EXT issues of earlier clauses are owed nothing and none of them that did not act has zero entries still to
push, DRAIN for nothing more. -/
def Obligations.SyncIssue : Prop :=
  SyncIssues .waitt 1 (fun x _ f => ∃ e r, x.queue (bitsN f 9 4) = e :: r ∧ e.ready = true ∧ e.tok.toNat = bitsN f 13 4) ∧
  SyncIssues .waitnt 2 (fun x _ f => ∃ e r, x.queue (bitsN f 9 4) = e :: r ∧ e.ready = true ∧ e.tok.toNat ≠ bitsN f 13 4) ∧
  SyncIssues .drain 3 (fun _ _ _ => True) ∧
  SyncIssues .waitn 4 (fun x _ f => ∃ es r, x.queue (bitsN f 9 4) = es ++ r ∧ (∀ e ∈ es, e.ready = true) ∧
    4 * (bitsN f 13 4 + 1) ≤ es.length) ∧
  SyncIssues .waitf 5 (fun x _ f => (x.queue (bitsN f 9 4)).length + 4 * (bitsN f 13 4 + 1) ≤ 64) ∧
  SyncIssues .waitp 6 (fun x _ f => x.pred (bitsN f 13 2) = !bitN f 15) ∧
  SyncIssues .waitx 7 (fun x cl _ => (∀ e ∈ x.extOwed, cl.seq ≤ e.seq) ∧
    ∀ v, x.vact = some v → vVerb v.fld.toNat = 0x40 → v.acts = false → v.seq < cl.seq → v.zeros = 0)

/-- A narrow read or write issues as one access at the address of its descriptor's next step, of 4 bytes; GRST comes first,
the position advances, memory and counters stay (R168, R171, R182, R185). A field that does not act only advances (R175). -/
def NarrowAccessHolds : Prop :=
  ∀ (s : State) (p : Place) (cl : Clause) (write : Bool),
    let f := slotField 0 cl.word
    let c := p.cl.val
    let x := s.at_ p
    let n := bitsN f 11 5
    let d := (s.cluster c).desc n
    let x' := if bitN f 16 = true then x.grst n else x
    let tg := s.target c p.tile.val d (d.addr (x'.position n) (x.base d.base)) write
    s.CanIssue p 0 (if write then 0x14 else 0x13) cl → CounterReady x cl →
    ∃ t, exec (if write then .stw p else .ldw p) s = .next t ∧
      t = { s with tiles := t.tiles, tasks := t.tasks, ctxs := t.ctxs } ∧ x.IssuedOne (t.at_ p) 0 ∧
      (∀ k, k ≠ s.tileKey c p.tile.val → Tbl.get Tile.fresh t.tiles k = Tbl.get Tile.fresh s.tiles k) ∧
      (t.at_ p).ct = x.ct ∧ (t.at_ p).queues = x.queues ∧ (t.at_ p).pos = (x'.advance n d).pos ∧
      (cl.acts 0 p.tile.val x = false → (t.at_ p).accs = x.accs ∧ (t.at_ p).ctWait = x.ctWait) ∧
      (cl.acts 0 p.tile.val x = true →
        (t.at_ p).accs = x.accs ++ [
          { id := x.nextId, slot := 0, seq := cl.seq, xfer := 0, rd := if write then none else some tg,
            wr := if write then some tg else none, width := 4,
            data := if write then (x.counter (bitsN f 8 3)).zeroExtend 1024 else 0, granted := false, have_ := 0, dests := [],
            ctr := if write then none else some (bitsN f 5 3) }] ∧
        (t.at_ p).ctWait = if write then x.ctWait else (cl.seq, bitsN f 5 3) :: x.ctWait)

/-- The word of the oldest LDW reaches its counter, which is then free to use (R185): of local memory the bytes there where no
unordered write touches them (R130), of a suppressed address zero (R129). Nothing but the tile changes, and of the context's counters
at most the bank conflicts of its stalls (R128). -/
def NarrowWordArrivesHolds : Prop :=
  ∀ (s : State) (p : Place) (a : Access) (n : Nat), let x := s.at_ p
    x.accs.find? (fun a => a.slot = 0 && a.ctr.isSome) = some a → a.ctr = some n → a.width = 4 → x.clear a = true →
    s.readClash p.cl.val p.tile.val a = false →
    let landed (w : Word) : Prop := ∃ t, exec (.ldwWordArrive p) s = .next t ∧
      t = { s.setTile p.cl.val p.tile.val
        { x with accs := x.accs.filter (fun o => o.id ≠ a.id), ct := Tbl.set n w x.ct, ctWait := x.ctWait.filter (fun v => v.2 ≠ n) }
        with ctxs := t.ctxs }
    (∀ m, a.rd = some (.here m) → landed (BitVec.ofNat 32
      ((memGet s.mem m).toNat + 256 * (memGet s.mem (m + 1)).toNat + 65536 * (memGet s.mem (m + 2)).toNat +
        16777216 * (memGet s.mem (m + 3)).toNat))) ∧
    (a.rd = some .suppressed → landed 0)

/-- LDW and STW issue as one access of 4 bytes, and the word of an LDW reaches its counter (R185). -/
def Obligations.Narrow : Prop := NarrowAccessHolds ∧ NarrowWordArrivesHolds

/-- The allocator verbs ask once for the cluster and wait for the result in CT[CDST] (R257). -/
def AllocatorAsksHolds : Prop :=
  let asks (i : Place → Instr) (verb : Nat) : Prop := ∀ (s : State) (p : Place) (cl : Clause),
    s.CanIssue p 0 verb cl → CounterReady (s.at_ p) cl →
    let f := slotField 0 cl.word
    let c := p.cl.val
    let acts := cl.acts 0 p.tile.val (s.at_ p)
    let ask : AllocReq := { seq := cl.seq, tile := p.tile.val, acts := acts, src := (s.at_ p).counter (bitsN f 8 3),
                            imm := bitsN f 17 7, verb := verb, cdst := bitsN f 5 3 }
    ∃ t, exec (i p) s = .next t ∧
      t = { s with tiles := t.tiles, tasks := t.tasks,
                   clusters := Tbl.set c { s.cluster c with areq := (s.cluster c).areq ++ [ask] } s.clusters } ∧
      (∀ k, k ≠ s.tileKey c p.tile.val → Tbl.get Tile.fresh t.tiles k = Tbl.get Tile.fresh s.tiles k) ∧
      (s.at_ p).IssuedOne (t.at_ p) 0 ∧
      t.at_ p = { s.at_ p with
        ctWait := if acts then (cl.seq, bitsN f 5 3) :: (s.at_ p).ctWait else (s.at_ p).ctWait, issued := (t.at_ p).issued,
        clauseQ := (t.at_ p).clauseQ, errWarn := (t.at_ p).errWarn }
  asks .alloc 0x18 ∧ asks .free 0x19 ∧ asks .bind 0x1A ∧ asks .avail 0x1B

/-- The run of a place's cluster has no TRAP. -/
def NoTrap (s : State) (p : Place) : Prop := ∀ k, s.clusterTask p.cl.val = some k → k.trap = false

/-- An operand of a vector verb at element i: a constant, or the element of an entry. -/
abbrev VArg := Option Word × Nat

/-- One step of an elementwise verb whose formats are of one width (R156, R157, R160, R189): one entry comes off each source,
each once, and one goes to DST, element i of it being `val` of the elements i, rounded once to nearest even. The verb has one
step fewer, and leaves the slot with its last one. Stated without amax words and without stochastic rounding, where no other slot
has used a queue of the tile (R134). -/
def ElementStep (verb : Nat) (two three : Bool) (val : Nat → Nat → VArg → VArg → VArg → NumVal) (pre : Nat → Bool := fun _ => true) :
    Prop :=
  ∀ (s : State) (p : Place) (v : VAct) (a : QEntry) (b c : List Nat), let x := s.at_ p
    let f := v.fld.toNat
    let fi := vIn f
    let k1 := if vSrc1K f then some v.konst1 else none
    let k2 := if vAuxK f then some v.konst2 else none
    (s.cluster p.cl.val).phase = .running → p.tile.val < s.tpc → x.vact = some v → vVerb f = verb → pre f = true → v.out = [] → v.acc = [] →
    v.aux = [] → v.zeros = 0 → v.acts = true → vSr f = false → vAuxen f = false → fmtWidth (vOut f) = fmtWidth fi → NoTrap s p →
    (∀ u ∈ x.uses, u.slot = 1) →
    (x.queue (vSrc0 f)).head? = some a → a.ready = true →
    (two = true → vSrc1K f = false → ∃ e, x.head (vSrc1 f) = some e ∧ b = entryElems fi e.data) →
    (three = true → vAuxK f = false → ∃ e, x.head (vAux f) = some e ∧ c = entryElems fi e.data) →
    let srcs := vSrc0 f :: ((if two && !vSrc1K f then [vSrc1 f] else []) ++ (if three && !vAuxK f then [vAux f] else []))
    let rest (q : Nat) := if q ∈ srcs then (x.queue q).drop 1 else x.queue q
    (rest (vDst f)).length < 64 →
    let as_ := entryElems fi a.data
    let codes := (List.range as_.length).map (fun i =>
      (convert (vOut f) .rne (val (vXop f) fi (none, as_.getD i 0) (k1, b.getD i 0) (k2, c.getD i 0))).1)
    let tok := tokenOf (vTmode f) (vTok f) (!v.firsts.contains (vDst f)) a.tok
    ∃ t, exec (.slotStep p 1 .clean) s = .next t ∧
      t = { s with tiles := t.tiles, tasks := t.tasks, ctxs := t.ctxs } ∧
      (∀ k, k ≠ s.tileKey p.cl.val p.tile.val → Tbl.get Tile.fresh t.tiles k = Tbl.get Tile.fresh s.tiles k) ∧
      (t.at_ p).vact.map (fun w => w.left) = (if v.left - 1 = 0 then none else some (v.left - 1)) ∧
      ∀ q, (t.at_ p).queue q =
        rest q ++ (if q = vDst f then [{ data := packElems (vOut f) codes, tok := tok, ready := true, id := 0 }] else [])

/-- What the elementwise verbs compute (Table 07-4, R189, R191): floating operands widen to F32; MOV, CMP and SEL take them
at their exact values, and so does CVT, which multiplies by the constant q of SRC1 when XOP[0] is 0 (R196). -/
def Obligations.VectorElements : Prop :=
  let w (fi : Nat) (o : VArg) : NumVal := wideArg fi o.1 o.2
  let e (fi : Nat) (o : VArg) : NumVal := exactArg fi o.1 o.2
  let pick (yes : Bool) (a b : NumVal) : NumVal := if yes then a else b
  ElementStep 0x01 false false (fun _ fi a _ _ => decode fi a.2) ∧
  ElementStep 0x08 true false (fun _ fi a b _ => NumVal.add (w fi a) (w fi b)) ∧
  ElementStep 0x09 true false (fun _ fi a b _ => NumVal.add (w fi a) (NumVal.neg (w fi b))) ∧
  ElementStep 0x0A true false (fun _ fi a b _ => NumVal.mul (w fi a) (w fi b)) ∧
  ElementStep 0x0B true true (fun _ fi a b c => NumVal.add (NumVal.mul (w fi a) (w fi b)) (w fi c)) ∧
  ElementStep 0x0C true false (fun _ fi a b _ =>
    pick ((w fi a).isNan || (w fi b).isNan) .nan (pick (NumVal.lt (w fi b) (w fi a)) (w fi b) (w fi a))) ∧
  ElementStep 0x0D true false (fun _ fi a b _ =>
    pick ((w fi a).isNan || (w fi b).isNan) .nan (pick (NumVal.lt (w fi a) (w fi b)) (w fi b) (w fi a))) ∧
  ElementStep 0x0E false false (fun _ fi a _ _ => NumVal.abs (w fi a)) ∧
  ElementStep 0x0F false false (fun _ fi a _ _ => NumVal.neg (w fi a)) ∧
  ElementStep 0x10 true false (fun rel fi a b _ =>
    let less := NumVal.lt (e fi a) (e fi b)
    let same := NumVal.same (e fi a) (e fi b)
    let more := NumVal.lt (e fi b) (e fi a)
    pick (match rel with
      | 0 => less
      | 1 => less || same
      | 2 => same
      | 3 => !same
      | 4 => more || same
      | _ => more) (.fin 1 1) (.fin 0 1)) ∧
  ElementStep 0x11 true true (fun _ fi a b c => pick (e fi c).isZero (e fi b) (e fi a)) ∧
  ElementStep 0x14 true false (fun _ fi a b _ => toF32 (NumVal.div (w fi a) (w fi b))) ∧
  ElementStep 0x15 false false (fun xop fi a _ _ => toF32 (sfuNum xop (w fi a))) ∧
  ElementStep 0x02 false false (fun _ fi a b _ => NumVal.mul (decode fi a.2) (e 5 (b.1, 0)))
    (fun f => vSrc1K f && vXop f % 2 = 0)

/-- What the integer verbs compute (R192): on 32-bit words, modulo 2^32, shifts modulo 32, the right one arithmetic; the
result is taken as a signed number. -/
def Obligations.VectorIntegers : Prop :=
  let w (fi : Nat) (o : VArg) : Word := intArg fi o.1 o.2
  let int (x : Word) : NumVal := .fin x.toInt 1
  ElementStep 0x20 true false (fun _ fi a b _ => int (BitVec.ofNat 32 ((w fi a).toNat + (w fi b).toNat))) ∧
  ElementStep 0x21 true false (fun _ fi a b _ => int (BitVec.ofInt 32 ((w fi a).toInt - (w fi b).toInt))) ∧
  ElementStep 0x22 true false (fun _ fi a b _ => int (BitVec.ofNat 32 ((w fi a).toNat * (w fi b).toNat))) ∧
  ElementStep 0x23 true false (fun _ fi a b _ => int (w fi a &&& w fi b)) ∧
  ElementStep 0x24 true false (fun _ fi a b _ => int (w fi a ||| w fi b)) ∧
  ElementStep 0x25 true false (fun _ fi a b _ => int (w fi a ^^^ w fi b)) ∧
  ElementStep 0x26 true false (fun _ fi a b _ =>
    int (BitVec.ofNat 32 ((w fi a).toNat * 2 ^ ((w fi b).toNat % 32)))) ∧
  ElementStep 0x27 true false (fun _ fi a b _ => .fin ((w fi a).toInt / 2 ^ ((w fi b).toNat % 32)) 1)

/-- A step of a verb that takes whole entries of F32 words from SRC0 and gives F32 words (R156, R157): the entry comes off
SRC0, and `outs` are the entries that go to DST. -/
def EntryStep (verb : Nat) (pre : VAct → Prop) (outs : VAct → QEntry → List (List Nat)) (kept : VAct → QEntry → List Nat) : Prop :=
  ∀ (s : State) (p : Place) (v : VAct) (a : QEntry), let x := s.at_ p
    let f := v.fld.toNat
    (s.cluster p.cl.val).phase = .running → p.tile.val < s.tpc → x.vact = some v → vVerb f = verb → pre v → v.out = [] →
    v.aux = [] → v.zeros = 0 → v.acts = true → vSr f = false → vAuxen f = false → vIn f = 5 → vOut f = 5 → 2 ≤ v.left →
    vDst f ≠ vSrc0 f → NoTrap s p → (∀ u ∈ x.uses, u.slot = 1) → (x.queue (vSrc0 f)).head? = some a → a.ready = true →
    (x.queue (vDst f)).length + 16 ≤ 64 →
    ∃ t, exec (.slotStep p 1 .clean) s = .next t ∧
      t = { s with tiles := t.tiles, tasks := t.tasks, ctxs := t.ctxs } ∧
      (∀ k, k ≠ s.tileKey p.cl.val p.tile.val → Tbl.get Tile.fresh t.tiles k = Tbl.get Tile.fresh s.tiles k) ∧
      (∃ w, (t.at_ p).vact = some w ∧ w.left = v.left - 1 ∧ w.acc = kept v a) ∧
      (t.at_ p).queue (vSrc0 f) = (x.queue (vSrc0 f)).drop 1 ∧
      ((t.at_ p).queue (vDst f)).map (fun e => e.data) =
        (x.queue (vDst f)).map (fun e => e.data) ++ (outs v a).map (packElems 5)

/-- The verbs that combine elements (R122, R193 to R195), on F32 words: RSUM, RMAX and RMIN make one word of an entry's
sixteen, in four rounds of adjacent pairs, and keep it until an entry is full; TRN gives the transpose with the sixteenth
entry of a block; SCALE gives two entries of (d, q) pairs, d in the even words. -/
def Obligations.VectorCombining : Prop :=
  let word (x : NumVal) : Nat := (convert 5 .rne x).1
  let fold (op : NumVal → NumVal → NumVal) (a : QEntry) : Nat :=
    let e (i : Nat) : NumVal := decode 5 (bitsN a.data.toNat (32 * i) 32)
    let p2 (i : Nat) : NumVal := op (e (2 * i)) (e (2 * i + 1))
    let p4 (i : Nat) : NumVal := op (p2 (2 * i)) (p2 (2 * i + 1))
    let p8 (i : Nat) : NumVal := op (p4 (2 * i)) (p4 (2 * i + 1))
    word (op (p8 0) (p8 1))
  let lesser (a b : NumVal) : NumVal := if a.isNan || b.isNan then .nan else if NumVal.lt b a then b else a
  let greater (a b : NumVal) : NumVal := if a.isNan || b.isNan then .nan else if NumVal.lt a b then b else a
  let few (v : VAct) : Prop := v.acc.length < 15
  EntryStep 0x18 few (fun _ _ => []) (fun v a => v.acc ++ [fold (fun a b => toF32 (NumVal.add a b)) a]) ∧
  EntryStep 0x19 few (fun _ _ => []) (fun v a => v.acc ++ [fold greater a]) ∧
  EntryStep 0x1A few (fun _ _ => []) (fun v a => v.acc ++ [fold lesser a]) ∧
  EntryStep 0x1D (fun v => v.acc = [] ∧ v.grp.length = 240)
    (fun v a => (List.range 16).map (fun i => (List.range 16).map (fun j =>
      word (decode 5 ((v.grp ++ entryElems 5 a.data).getD (16 * j + i) 0))))) (fun _ _ => []) ∧
  (∀ (s : State) (p : Place) (v : VAct) (a : QEntry) (fo : Nat), let x := s.at_ p
    let f := v.fld.toNat
    let pair (i : Nat) : Nat × Nat := scalePair (bitsN a.data.toNat (32 * i) 32) (vXop f % 4) (bitN f 48) (vOut f)
    (s.cluster p.cl.val).phase = .running → p.tile.val < s.tpc → x.vact = some v → vVerb f = 0x1C → v.out = [] → v.acc = [] →
    v.aux = [] → v.zeros = 0 → v.acts = true → vAuxen f = false → vOut f = fo → 2 ≤ v.left → vDst f ≠ vSrc0 f → NoTrap s p →
    (∀ u ∈ x.uses, u.slot = 1) →
    (x.queue (vSrc0 f)).head? = some a → a.ready = true → (x.queue (vDst f)).length + 2 ≤ 64 →
    ∃ t, exec (.slotStep p 1 .clean) s = .next t ∧ (t.at_ p).queue (vSrc0 f) = (x.queue (vSrc0 f)).drop 1 ∧
      ((t.at_ p).queue (vDst f)).map (fun e => e.data) = (x.queue (vDst f)).map (fun e => e.data) ++
        [packWords ((List.range 8).flatMap (fun i => [(pair i).1, (pair i).2])),
         packWords ((List.range 8).flatMap (fun i => [(pair (8 + i)).1, (pair (8 + i)).2]))])

/-- Steps of the load and store slots (R155, R156, R171, R175, R207, R209): LDZ pushes a zero entry with its token; LD opens a
read of its descriptor's width at the address of its step and reserves its entries; ST pops its entries and opens the write. A slot
none of whose cellar steps waits for its grant makes them (R272), and for LDZ no other slot has pushed or popped the tile's
queues (R134). -/
def Obligations.LoadStoreSteps : Prop :=
  ∀ (s : State) (p : Place) (l : LSAct), let x := s.at_ p
    let c := p.cl.val
    let d := (s.cluster c).desc l.agd
    let w := widthBytes d.width
    let left : Option Nat := if l.left ≤ 1 then none else some (l.left - 1)
    let addr := d.addr (x.position l.agd) (l.bases.getD d.base 0)
    (s.cluster c).phase = .running → p.tile.val < s.tpc →
    (x.lact = some l → l.verb = 3 → x.stuck 3 = false → (∀ u ∈ x.uses, u.slot = 3) → (x.queue l.dst).length < 64 →
      ∃ t, exec (.slotStep p 3 .clean) s = .next t ∧ s.OnlyTile t p ∧ (t.at_ p).lact.map (fun y => y.left) = left ∧
        ∀ q, (t.at_ p).queue q = x.queue q ++ (if q = l.dst then
          [{ data := 0, tok := tokenOf l.tmode l.tok l.first 0, ready := true, id := 0 }] else [])) ∧
    (x.lact = some l → l.verb = 1 → l.acts = true → x.stuck 3 = false → (x.queue l.dst).length + w / 64 ≤ 64 →
      s.tooMany c p.tile.val 3 l = false → s.canSend (s.target c p.tile.val d addr false) = true →
      ∃ t a, exec (.slotStep p 3 .clean) s = .next t ∧ (t.at_ p).lact.map (fun y => y.left) = left ∧
        (∀ b, memGet t.mem b = memGet s.mem b) ∧ (t.at_ p).pos = (x.advance l.agd d).pos ∧
        (t.at_ p).accs = x.accs ++ [a] ∧ a.slot = 3 ∧ a.seq = l.seq ∧ a.width = w ∧
        a.rd = some (s.target c p.tile.val d addr false) ∧ a.wr = none ∧ a.dests.length = w / 64 ∧
        ((t.at_ p).queue l.dst).length = (x.queue l.dst).length + w / 64) ∧
    (x.sact = some l → l.verb = 1 → l.acts = true → x.stuck 4 = false → x.canPop l.dst (w / 64) = true →
      s.tooMany c p.tile.val 4 l = false → s.canSend (s.target c p.tile.val d addr true) = true →
      ∃ t a, exec (.slotStep p 4 .clean) s = .next t ∧ (t.at_ p).sact.map (fun y => y.left) = left ∧
        (∀ b, memGet t.mem b = memGet s.mem b) ∧ (t.at_ p).pos = (x.advance l.agd d).pos ∧
        (t.at_ p).accs = x.accs ++ [a] ∧ a.slot = 4 ∧ a.seq = l.seq ∧ a.width = w ∧
        a.wr = some (s.target c p.tile.val d addr true) ∧ a.rd = none ∧
        (w = 64 → ∃ e r, x.queue l.dst = e :: r ∧ a.data.toNat = e.data.toNat ∧ (t.at_ p).queue l.dst = r))

/-- The n-th open access of a slot, in order of issue. -/
def nthAccess (x : Tile) (slot n : Nat) : Option Access := (x.accs.filter (fun a => a.slot = slot))[n]?

/-- A local read that nothing unordered overlaps returns the bytes at its address to the entries that wait for it, one to
the zone it suppresses returns zero; a copying verb's data go on as a write of the same width (R129, R130, R210, R248). Of the
contexts' counters at most the bank conflicts of their stalls move (R128). -/
def Obligations.ReadsReturn : Prop :=
  ∀ (s : State) (p : Place) (slot : Fin 6) (n : Nat) (a : Access), let x := s.at_ p
    let c := p.cl.val
    nthAccess x slot.val n = some a → slot.val ≠ 2 → a.ctr = none → x.clear a = true → s.readClash c p.tile.val a = false →
    let ended (cx : Tbl Ctx) : State :=
      { s.setTile c p.tile.val { x with accs := x.accs.filter (fun o => o.id ≠ a.id) } with ctxs := cx }
    (a.wr = none → ∀ m, a.rd = some (.here m) → ∃ cx, exec (.readReturn p slot n .clean) s =
      .next ((ended cx).fillDests c p.tile.val a.seq a.dests (BitVec.ofNat 1024 (memNat s.mem m a.width)))) ∧
    (a.wr = none → a.rd = some .suppressed → ∃ cx, exec (.readReturn p slot n .clean) s =
      .next ((ended cx).fillDests c p.tile.val a.seq a.dests 0)) ∧
    (∀ m m', a.rd = some (.here m) → a.wr = some (.here m') → ∃ t, exec (.readReturn p slot n .clean) s = .next t ∧
      t = { s with tiles := t.tiles, ctxs := t.ctxs } ∧
      (∀ k, k ≠ s.tileKey c p.tile.val → Tbl.get Tile.fresh t.tiles k = Tbl.get Tile.fresh s.tiles k) ∧
      (t.at_ p).accs = x.accs.map (fun o => if o.id = a.id then
        { a with rd := none, data := BitVec.ofNat 1024 (memNat s.mem m a.width), have_ := 0, granted := false } else o))

/-- A local write that nothing unordered overlaps lands as it becomes visible: its bytes, least significant first, at its
address, every other byte of memory as before (R43, R163, R248); a suppressed one ends with no effect (R129). Of the contexts'
counters at most the bank conflicts of their stalls move (R128). -/
def Obligations.WritesLand : Prop :=
  ∀ (s : State) (p : Place) (slot : Fin 6) (n : Nat) (a : Access), let x := s.at_ p
    let c := p.cl.val
    nthAccess x slot.val n = some a → a.rd = none → x.clear a = true → s.writeClash c p.tile.val a = false →
    let ended := s.setTile c p.tile.val { x with accs := x.accs.filter (fun o => o.id ≠ a.id) }
    (a.wr = some .suppressed → exec (.writeVisible p slot n) s = .next ended) ∧
    (memWf s.mem = true → ∀ m, a.wr = some (.here m) → ∃ t, exec (.writeVisible p slot n) s = .next t ∧
      t = { ended with mem := t.mem, ctxs := t.ctxs } ∧
      ∀ b, memGet t.mem b =
        if m ≤ b ∧ b < m + a.width then BitVec.ofNat 8 (a.data.toNat / 256 ^ (b - m)) else memGet s.mem b)

/-- A k step takes 16 codes of each operand from its entries (R114, R115): with none left of the last entries it pops MA and MB.
Stated for a block without group scales whose open group is not full, its block-level entries and an earlier block's popped; a k
step that soft start, the cap or a throttle withholds in this cycle counts under cause 26 of CTX_STALL instead (R490). The escape entries of the
oldest block that waits for them are in once every read of them has come; its next group may then step (R204). -/
def Obligations.MatrixSteps : Prop :=
  (∀ (s : State) (p : Place) (b : Block) (ea eb : QEntry), let x := s.at_ p
     let f := b.fld.toNat
     let m := b.mode.toNat
     (s.cluster p.cl.val).phase = .running → x.blocks.find? (fun o => o.k < o.K) = some b → b.levelDone = true →
     b.scqDone = true → b.groupFull = false → mSca m < 2 → mScb m < 2 → b.k / mG f ≤ b.closed → b.aLeft = [] → b.bLeft = [] →
     x.head 4 = some ea → x.head 5 = some eb → mScq m ≠ 4 → mScq m ≠ 5 →
     (∀ e, x.blocks.head? = some e → e.seq ≠ b.seq → e.levelDone = true ∧ e.groupFull = false) →
     (s.withheld p.cl.val p.tile.val = true → ∀ k, s.clusterCtx p.cl.val = some k → ∃ t, exec (.mmaKStep p) s = .next t ∧
       Tbl.get 0 (t.ctx k).stall 26 = (Tbl.get 0 (s.ctx k).stall 26 + 1) % 2 ^ 64 ∧ (t.at_ p).queue 4 = x.queue 4 ∧
       (t.at_ p).queue 5 = x.queue 5) ∧
     (s.withheld p.cl.val p.tile.val = false → ∃ t b', exec (.mmaKStep p) s = .next t ∧ t.mem = s.mem ∧ b' ∈ (t.at_ p).blocks ∧ b'.seq = b.seq ∧ b'.k = b.k + 1 ∧
       b'.aLeft = (entryElems (mA f) ea.data).drop 16 ∧ b'.bLeft = (entryElems (mB f) eb.data).drop 16 ∧
       (t.at_ p).queue 4 = (x.queue 4).drop 1 ∧ (t.at_ p).queue 5 = (x.queue 5).drop 1 ∧
       (b.k + 1 ≠ b.K → b.k + 1 ≠ (b.closed + 1) * mG f →
         b'.ops = b.ops ++ [((entryElems (mA f) ea.data).take 16, (entryElems (mB f) eb.data).take 16)]))) ∧
  (∀ (s : State) (p : Place) (b : Block), let x := s.at_ p
     x.blocks.find? (fun o => !o.escArrived) = some b →
     (∀ a ∈ x.accs, a.slot = 2 → a.seq = b.seq → a.arrived = true) →
     ∃ t, exec (.escapeEntryArrive p) s = .next t ∧ t.mem = s.mem ∧
       (∃ b' ∈ (t.at_ p).blocks, b'.seq = b.seq ∧ b'.escArrived = true) ∧
       (t.at_ p).accs = x.accs.filter (fun a => !(a.slot = 2 && a.seq = b.seq)))

/-- A lane's check of a closed group passes where its cells sum to the checksum cell's value up to the lane's bound, which is 0 where
the products are exact, or where it is exempt; passing groups only count their exempt checks (R92, R94, R95). A checksum
fault (R94, R96): the row check names the column and the column check the row of the cell; the fault is of class 1, it counts in
the tile's health, and the run is aborted with it, also where a NaN event has stopped it already (R537). What reaches a check
besides the values computed is an upset's deviation (R96). -/
def Obligations.ChecksumVerdicts : Prop :=
  (∀ k : LaneCheck, 0 < k.den → 0 < k.bden →
     (k.fails (.fin 0 1) = true ↔ k.exempt = false ∧ k.bound * (k.den : Int) < (k.num.natAbs : Int) * (k.bden : Int))) ∧
  (∀ (s : State) (p : Place) (v : Verdict) (ks : List LaneCheck) (rest : List (List LaneCheck)), let x := s.at_ p
     x.verdicts = ks :: rest →
     (∀ l k, l < 16 → ks[l]? = some k → k.fails (Deviation.at_ v.rowCheck l) = false) →
     (∀ l k, l < 16 → ks[16 + l]? = some k → k.fails (Deviation.at_ v.colCheck l) = false) →
     let n := x.exempt + (ks.filter (fun k => k.exempt)).length
     exec (.checksumVerdict p v .clean) s = .next (s.setTile p.cl.val p.tile.val
       { x with verdicts := rest, exempt := if 65535 < n then 65535 else n })) ∧
  (∀ (s : State) (p : Place) (v : Verdict) (row col : Fin 16) (kr kc : LaneCheck) (ks : List LaneCheck) (rest : List (List LaneCheck))
     (k : Nat) (tk : Task), let x := s.at_ p
     let c := p.cl.val
     let phys := (s.cluster c).phys p.tile.val
     x.verdicts = ks :: rest → ks[col.val]? = some kr → kr.fails (Deviation.at_ v.rowCheck col.val) = true →
     ks[16 + row.val]? = some kc → kc.fails (Deviation.at_ v.colCheck row.val) = true →
     (∀ l e, l < col.val → ks[l]? = some e → e.fails (Deviation.at_ v.rowCheck l) = false) →
     (∀ l e, l < row.val → ks[16 + l]? = some e → e.fails (Deviation.at_ v.colCheck l) = false) →
     (s.cluster c).task = some k → s.task? k = some tk →
     (tk.life = .running ∨ (tk.life = .aborting ∧ tk.cause = some .nan)) →
     ∃ t, exec (.checksumVerdict p v .clean) s = .next t ∧
       t.task? k = some { tk with life := .aborting, cause := some (.fault 1 (16 * row.val + col.val) c ((c * 17 + phys) % 17)) } ∧
       (tk.life = .running → (t.cluster c).phase = .stopped) ∧
       (t.silicon (c * 17 + phys)).csum =
         (if 255 < (s.silicon (c * 17 + phys)).csum + 1 then 255 else (s.silicon (c * 17 + phys)).csum + 1))

/-- A finished block is converted and pushed to MC in stream order, element (i, j) at 16 × i + j, and its bank is free (R117,
R119). Stated for an F32 result without output scales, stochastic rounding or amax words, with room in MC. -/
def Obligations.BlocksDrain : Prop :=
  ∀ (s : State) (p : Place) (b : Block) (more : List Block), let x := s.at_ p
    let f := b.fld.toNat
    (s.cluster p.cl.val).phase = .running → x.blocks = b :: more → (∀ o ∈ more, o.seq ≠ b.seq) → b.K ≤ b.k →
    b.groups ≤ b.closed → b.levelDone = true → b.groupFull = false → b.filled = false → b.acts = true → NoTrap s p →
    mOut f = 5 → intSums f b.mode.toNat = false → mSco b.mode.toNat = false → bitN f 27 = false → bitN f 30 = false →
    (x.queue 6).length + 16 ≤ 64 →
    ∃ t, exec (.blockDrain p) s = .next t ∧ t = { s with tiles := t.tiles } ∧
      (∀ k, k ≠ s.tileKey p.cl.val p.tile.val → Tbl.get Tile.fresh t.tiles k = Tbl.get Tile.fresh s.tiles k) ∧
      (t.at_ p).blocks = more ∧
      ((t.at_ p).queue 6).map (fun e => e.data) = (x.queue 6).map (fun e => e.data) ++
        (List.range 16).map (fun i => packElems 5 ((List.range 16).map (fun j =>
          (convert 5 .rne (decode 5 (b.sumAt (16 * i + j)))).1)))

/-! ### The sequencer, mailboxes and punctuation (08) -/

/-- A cluster that goes to clause n: past the last one its paragraph ends, before a punctuated one it meets its barrier, and
RECV and MASK come before the broadcast (R223). -/
def went (x : Cluster) (n : Nat) : Cluster :=
  if x.para.length ≤ n then { x with next := n, paraEnded := true, step := .post }
  else
    let w := (x.para.getD n 0).toNat
    { x with next := n, step := if bitsN w 9 2 ≠ 0 then .barrier
                                else if bitsN w 11 3 = 3 ∨ bitsN w 11 3 = 5 then .pre else .body }

/-- A running cluster that stands at a step of its clause, with a SEQCTL operation in hand. -/
def StandsAt (x : Cluster) (step : SeqStep) (op : Nat) : Prop :=
  x.phase = .running ∧ x.paraEnded = false ∧ x.step = step ∧ bitsN (x.para.getD x.next 0).toNat 11 3 = op

/-- SEQCTL.ARG of the clause that a cluster stands at. -/
def argOf (x : Cluster) : Nat := bitsN (x.para.getD x.next 0).toNat 14 5

/-- A sequencer value, its index taken modulo 32 (R222). -/
def valueOf (x : Cluster) (n : Nat) : Word := Tbl.get 0 x.sv (n % 32)

/-- A clause without a SEQCTL operation is broadcast to every tile that has room in its clause queue, with the mask now in
force and its issue count, and the next clause follows (R98, R220, R221, R223). One that the paragraph store does not hold yet is
waited for under cause 31 (R219, R280). -/
def Obligations.ClauseBroadcasts : Prop :=
  ∀ (s : State) (cl : Fin 32), let c := cl.val
    let x := s.cluster c
    StandsAt x .body 0 → x.next + 1 < x.para.length → (∀ i, i < s.tpc → (s.tile c i).clauseQ.length < 256) →
    (s.clauseThere c = false → ∀ k, s.clusterCtx c = some k → ∃ t, exec (.clauseBroadcast cl) s = .next t ∧
      t = { s with ctxs := t.ctxs } ∧ Tbl.get 0 (t.ctx k).stall 31 = (Tbl.get 0 (s.ctx k).stall 31 + 1) % 2 ^ 64) ∧
    (s.clauseThere c = true →
    ∃ t, exec (.clauseBroadcast cl) s = .next t ∧ t = { s with tiles := t.tiles, clusters := t.clusters } ∧
      t.cluster c = went { x with bcount := x.bcount + 1 } (x.next + 1) ∧
      (∀ d, d ≠ c → t.cluster d = s.cluster d) ∧
      (∀ k, (∀ i, i < s.tpc → k ≠ s.tileKey c i) → Tbl.get Tile.fresh t.tiles k = Tbl.get Tile.fresh s.tiles k) ∧
      ∀ i, i < s.tpc → t.tile c i = { s.tile c i with clauseQ := (s.tile c i).clauseQ ++
        [{ seq := x.bcount, addr := x.next, word := x.para.getD x.next 0, mask := x.mask }] })

/-- LOOP, ENDL, MASK and END (R222 to R224): LOOP of a count above 0 opens a loop of so many passes and a count of 0 skips to
the clause after its ENDL; ENDL repeats the body while passes are left, else closes the loop; MASK sets the tile mask of this
clause and the later ones; END ends the paragraph. The end of a loop that no ENDL closes is the model's reading (log 42). -/
def Obligations.SequencerControl : Prop :=
  ∀ (s : State) (cl : Fin 32), let c := cl.val
    let x := s.cluster c
    let count := (valueOf x (argOf x)).toNat
    let endl := matchEndl (x.para.drop (x.next + 1)) (x.next + 1) 0
    (StandsAt x .post 1 → x.loops.length < 8 → count ≠ 0 → x.next + 1 < x.para.length →
      ∃ l, exec (.loop cl) s = .next (s.setCluster c (went { x with loops := l :: x.loops } (x.next + 1))) ∧
        l.body = x.next + 1 ∧ l.left = count) ∧
    (StandsAt x .post 1 → x.loops.length < 8 → count = 0 → ∀ e, endl = some e → (e + 1 < x.para.length ∨ x.loops = []) →
      exec (.loop cl) s = .next (s.setCluster c (went x (e + 1)))) ∧
    (StandsAt x .post 2 → ∀ l r, x.loops = l :: r → 2 ≤ l.left →
      exec (.endl cl) s = .next (s.setCluster c (went { x with loops := { l with left := l.left - 1 } :: r } l.body))) ∧
    (StandsAt x .post 2 → ∀ l r, x.loops = l :: r → l.left ≤ 1 → (x.next + 1 < x.para.length ∨ r = []) →
      exec (.endl cl) s = .next (s.setCluster c (went { x with loops := r } (x.next + 1)))) ∧
    (StandsAt x .pre 3 → exec (.mask cl) s =
      .next (s.setCluster c { x with mask := BitVec.ofNat 16 (valueOf x (argOf x)).toNat, step := .body })) ∧
    (StandsAt x .post 6 → exec (.endPara cl) s = .next (s.setCluster c (went x x.para.length)))

/-- Sequencer errors (R218, R225, R244): the ninth open loop is cause 2, an ENDL without a loop cause 3, a SEND to no cluster of
the task cause 4, an illegal paragraph cause 5, which ends the cluster. The first error is kept, and the count stops at 255. -/
def Obligations.SequencerErrors : Prop :=
  ∀ (s : State) (cl : Fin 32), let c := cl.val
    let x := s.cluster c
    let noted (y : Cluster) (cause : Nat) : Prop :=
      y.seqErrs = (if 255 < x.seqErrs + 1 then 255 else x.seqErrs + 1) ∧ y.seqErrValid = true ∧
        (x.seqErrValid = false → y.seqCause = cause ∧ y.seqErrAt = x.next) ∧
        (x.seqErrValid = true → y.seqCause = x.seqCause ∧ y.seqErrAt = x.seqErrAt)
    (StandsAt x .post 1 → 8 ≤ x.loops.length → x.next + 1 < x.para.length → ∃ t, exec (.loop cl) s = .next t ∧
      noted (t.cluster c) 2 ∧ (t.cluster c).next = x.next + 1 ∧ (t.cluster c).loops = x.loops) ∧
    (StandsAt x .post 2 → x.loops = [] → x.next + 1 < x.para.length → ∃ t, exec (.endl cl) s = .next t ∧
      noted (t.cluster c) 3 ∧ (t.cluster c).next = x.next + 1) ∧
    (StandsAt x .post 4 → ∀ tk, s.clusterTask c = some tk → tk.total ≤ bitsN (valueOf x (argOf x)).toNat 0 12 →
      x.next + 1 < x.para.length → ∃ t, exec (.send cl) s = .next t ∧ noted (t.cluster c) 4 ∧ (t.cluster c).sent = x.sent) ∧
    (∀ tk, s.clusterTask c = some tk → x.phase = .loading → (s.paraInCellar tk = none ∨ x.asked = true) →
      s.onTheWay (fun g => g.paraOf c) = false → s.paragraphAt (bitsN tk.desc.toNat 48 4) tk.paraSlot tk.paraVer x.rel = none →
      x.spare.release = false → s.mails = [] → (∀ p ∈ s.tasks, p.2.after = none) → x.next = 0 →
      ∃ t, exec (.paragraphLoad cl) s = .next t ∧ noted (t.cluster c) 5 ∧ (t.cluster c).phase = .ended)

/-- SEND (R226, R228): the message, its first word the sender's task-relative number, goes to the back of the destination's
mailbox when that has room, else the sequencer waits under cause 30; to a destination on another die it goes over the link, and the
sequencer waits there until that die has reserved an entry for it; MBOX_STATUS counts it. -/
def MailSendsHolds : Prop :=
  ∀ (s : State) (cl : Fin 32) (k : Nat) (tk : Task), let c := cl.val
    let x := s.cluster c
    let dest := bitsN (valueOf x (argOf x)).toNat 0 12
    let m : Msg := { src := x.rel, w1 := valueOf x (argOf x + 1), w2 := valueOf x (argOf x + 2), w3 := valueOf x (argOf x + 3),
                     avail := false }
    x.task = some k → s.task? k = some tk → StandsAt x .post 4 → dest < tk.total → x.next + 1 < x.para.length →
    let sent := if 255 < x.sent + 1 then 255 else x.sent + 1
    (∀ d, dieOf dest tk.layout = some s.die → s.clusterOf k dest = some d → (s.cluster d).mbox.length < 16 →
      ∃ t, exec (.send cl) s = .next t ∧ t = { s with clusters := t.clusters } ∧
        (t.cluster d).mbox = (s.cluster d).mbox ++ [m] ∧ (t.cluster c).sent = sent ∧ (t.cluster c).next = x.next + 1 ∧
        ∀ e, e ≠ c → e ≠ d → t.cluster e = s.cluster e) ∧
    (dieOf dest tk.layout = some s.die → (s.clusterOf k dest = none ∨ ∃ d, s.clusterOf k dest = some d ∧ 16 ≤ (s.cluster d).mbox.length) →
      exec (.send cl) s = .next (s.stall c 30)) ∧
    (∀ d, dieOf dest tk.layout = some d → d ≠ s.die →
      (x.posted = 0 → ∃ t, exec (.send cl) s = .next t ∧ t.linkOut = s.linkOut ++ [(d, .mail k dest m false)] ∧ t.mem = s.mem ∧
        t.cluster c = { x with posted := 1 }) ∧
      (x.posted = 1 → exec (.send cl) s = .next (s.stall c 30)) ∧
      (x.posted = 2 → exec (.send cl) s = .next (s.setCluster c (went { x with sent := sent, posted := 0 } (x.next + 1)))))

/-- RECV (R229): the oldest available message from the wanted sender, 0xFFF being any, leaves the mailbox; its four words reach
four consecutive sequencer values; stated where no message waits for the entry that it frees. A message that has travelled becomes available after those of its sender before it (R230). -/
def MailArrivesHolds : Prop :=
  (∀ (s : State) (cl : Fin 32) (tk : Task) (older newer : List Msg) (m : Msg), let c := cl.val
    let x := s.cluster c
    let src := bitsN (valueOf x (argOf x)).toNat 0 12
    let wanted (o : Msg) : Prop := o.avail = true ∧ (src = 0xFFF ∨ o.src = src)
    s.clusterTask c = some tk → StandsAt x .pre 5 → s.mails = [] → (src = 0xFFF ∨ src < tk.total) → x.mbox = older ++ m :: newer → wanted m →
    (∀ o ∈ older, ¬ wanted o) →
    ∃ y, exec (.recv cl) s = .next (s.setCluster c y) ∧ y.mbox = older ++ newer ∧
      y.received = (if 255 < x.received + 1 then 255 else x.received + 1) ∧ y.step = .body ∧
      valueOf y (argOf x) = BitVec.ofNat 32 m.src ∧ valueOf y (argOf x + 1) = m.w1 ∧ valueOf y (argOf x + 2) = m.w2 ∧
      valueOf y (argOf x + 3) = m.w3 ∧
      ∀ n, (∀ i, i < 4 → n % 32 ≠ (argOf x + i) % 32) → valueOf y n = valueOf x n) ∧
  (∀ (s : State) (cl : Fin 32) (older newer : List Msg) (m : Msg),
    (s.cluster cl.val).mbox = older ++ m :: newer → (∀ o ∈ older, o.src = m.src → o.avail = true) →
    exec (.mailAvailable cl older.length) s = .next (s.setCluster cl.val
      { s.cluster cl.val with mbox := older ++ { m with avail := true } :: newer }))

/-- SEND, its arrival, and RECV (R226, R228 to R230). How a message to another die asks for its entry is the model's form
(log 37). -/
def Obligations.Mail : Prop := MailSendsHolds ∧ MailArrivesHolds

/-- A cluster that a barrier of a kind lets go (R233, R234, R242): every kind counts a comma, a semicolon also a region epoch, a full
stop both and a stop epoch; its tiles start softly from now. -/
def letGo (now : Nat) (x : Cluster) : Cluster :=
  let op := bitsN (x.para.getD x.next 0).toNat 11 3
  { x with softAt := now, commas := x.commas + 1, regEpoch := x.regEpoch + (if 2 ≤ x.punct then 1 else 0),
           stopEpoch := x.stopEpoch + (if x.punct = 3 then 1 else 0), punct := 0,
           step := if op = 3 ∨ op = 5 then .pre else .body }

/-- Barriers (R231 to R233, R236 to R238): a cluster whose tiles have drained arrives; a comma lets its own cluster go, a
semicolon the waiting clusters of its region once every participant there has arrived or ended, a full stop the clusters that
wait at the next stop epoch once every die of the task has reported it or ended. That a report reaches this die as an ARRIVE
row is the model's form (log 37). -/
def Obligations.Barriers : Prop :=
  (∀ (s : State) (cl : Fin 32), let x := s.cluster cl.val
    x.phase = .running → x.paraEnded = false → x.step = .barrier → s.allDrained cl.val = true →
    ∃ t, exec (.barrierArrive cl) s = .next t ∧ t.mem = s.mem ∧ t.tiles = s.tiles ∧
      t.cluster cl.val = { x with step := .arrived, punct := bitsN (x.para.getD x.next 0).toNat 9 2 } ∧
      ∀ d, d ≠ cl.val → t.cluster d = s.cluster d) ∧
  (∀ (s : State) (cl : Fin 32), let x := s.cluster cl.val
    x.phase = .running → x.step = .arrived → x.punct = 1 →
    exec (.commaRelease cl) s = .next (s.setCluster cl.val (letGo s.now x))) ∧
  (∀ (s : State) (region : Fin 8) (k : Nat) (tk : Task) (i : Fin 4), let c := 4 * region.val + i.val
    let x := s.cluster c
    x.task = some k → s.task? k = some tk → x.phase = .running → x.step = .arrived → x.punct = 2 →
    (∀ d ∈ tk.clusters, d / 4 = region.val → s.endedFor k d = true ∨ (d ∈ tk.started ∧ (x.regEpoch + 1 ≤ (s.cluster d).regEpoch ∨
      (x.regEpoch = (s.cluster d).regEpoch ∧ (s.cluster d).step = .arrived ∧ 2 ≤ (s.cluster d).punct)))) →
    ∃ t, exec (.semicolonRelease region) s = .next t ∧ t.mem = s.mem ∧ t.tiles = s.tiles ∧ t.cluster c = letGo s.now x) ∧
  (∀ (s : State) (k : Nat) (tk : Task), s.task? k = some tk → tk.life = .running → tk.master = s.die →
    (∀ d ∈ tk.layout, tk.stops + 1 ≤ (tk.reported d.1).1 ∨ (tk.reported d.1).2 = true) →
    (∃ d ∈ tk.layout, (tk.reported d.1).2 = false) →
    ∃ t, exec (.fullStopRelease k) s = .next t ∧ t.mem = s.mem ∧ t.tiles = s.tiles ∧
      (t.task? k).map (fun x => x.stops) = some (tk.stops + 1) ∧
      ∀ c, c < 32 → (s.cluster c).task = some k → (s.cluster c).phase = .running → (s.cluster c).step = .arrived →
        (s.cluster c).punct = 3 → (s.cluster c).stopEpoch = tk.stops → t.cluster c = letGo s.now (s.cluster c))

/-- A cluster loads its paragraph from its task's paragraph object (R217 to R219): sequencer values at byte 64, descriptors at
192, the mask at 4 and the clauses at 1,728; its registers, which the tiles read, are those and it runs from clause 0. A paragraph
in the cellar is first asked of the cellar's ports (R251), where it lies in the cellar window (R27), and loaded when all of it that
was asked for has come. -/
def Obligations.ParagraphLoads : Prop :=
  ∀ (s : State) (cl : Fin 32) (tk : Task) (off n : Nat), let c := cl.val
    let x := s.cluster c
    let o := s.obj tk.paraSlot
    let num (b k : Nat) : Nat := s.objNat o tk.paraVer (off + b) k
    s.clusterTask c = some tk → x.phase = .loading → bitsN tk.desc.toNat 48 4 = s.die →
    s.paragraphAt s.die tk.paraSlot tk.paraVer x.rel = some (off, n) →
    (o.tier = 2 → x.asked = false → s.cellarLost = false →
      (∀ a i, s.paraInCellar tk = some a → i < 20 + 4 * x.rel ∨ (off ≤ i ∧ i < off + 1728 + 32 * n) →
        s.inWindow ((a + i) / 64 * 64) = true) → ∃ t, exec (.paragraphLoad cl) s = .next t ∧ t.mem = s.mem ∧
      t.cluster c = { x with asked := true }) ∧
    ((o.tier ≠ 2 ∨ x.asked = true) → s.onTheWay (fun g => g.paraOf c) = false → s.mails = [] →
    ∃ t, exec (.paragraphLoad cl) s = .next t ∧ t = { s with clusters := t.clusters, ctxs := t.ctxs } ∧
      (t.cluster c).phase = .running ∧ (t.cluster c).next = 0 ∧ (t.cluster c).para.length = n ∧
      (t.cluster c).mask.toNat = num 4 2 % 2 ^ 16 ∧
      (∀ i, i < 32 → (valueOf (t.cluster c) i).toNat = num (64 + 4 * i) 4 % 2 ^ 32) ∧
      (∀ i, i < 32 → (Tbl.get 0 (t.cluster c).agd i).toNat = num (192 + 48 * i) 48 % 2 ^ 384) ∧
      ∀ i, i < n → ((t.cluster c).para.getD i 0).toNat = num (1728 + 32 * i) 32 % 2 ^ 256)

/-- A cluster ends when its paragraph has, all its verbs, blocks and accesses are complete and its checksum verdicts are in
(R235, R293): what its queues hold is counted in RESIDUE and discarded (R137). That a verb must have made all its steps is the
model's reading (log 42). -/
def Obligations.ClusterEnds : Prop :=
  ∀ (s : State) (cl : Fin 32), let c := cl.val
    let x := s.cluster c
    x.phase = .running → x.paraEnded = true → s.allDrained c = true →
    (∀ i, i < s.tpc → let y := s.tile c i
      y.accs = [] ∧ y.verdicts = [] ∧ y.ctWait = [] ∧ y.blocks = [] ∧ y.shared = []) →
    x.areq = [] → x.ares = [] → x.extUsed = false → x.spare.release = false →
    (∀ p ∈ s.tasks, p.2.after = none) →
    ∃ t, exec (.clusterEnd cl) s = .next t ∧ t.mem = s.mem ∧ (t.cluster c).phase = .ended ∧
      ∀ i, i < s.tpc → (t.tile c i).queues = [] ∧ (t.tile c i).residue =
        (let n := (s.tile c i).residue + ((s.tile c i).queues.map (fun q => q.2.length)).sum
         if 65535 < n then 65535 else n)

/-! ### Tasks, commits and faults (09, 10, 11, 15) -/

/-- A count that stops at its greatest value. -/
def upTo (limit n : Nat) : Nat := if limit < n then limit else n

/-- A task has retired: it is gone from the die, and its port, unless it hangs, has its completion to post next after those
it had, with the task's tag and master and the status (R321). -/
def Retired (s t : State) (k : Nat) (tk : Task) (status : Nat) : Prop :=
  t.task? k = none ∧ ((s.port tk.port).hung = false →
    ∃ (b : RespBeat) (more : List (Nat × RespBeat)), (t.port tk.port).posted = (s.port tk.port).posted ++ (k, b) :: more ∧ b.kind = 1 ∧ b.status = status ∧
      b.tag = tk.tag ∧ b.mid = tk.mid)

/-- The result of an allocator verb reaches the counter it names, and the counter is free to use again (R257). -/
def AllocatorResultHolds : Prop :=
  ∀ (s : State) (p : Place) (n : Nat) (w : Word) (rest : List (Nat × Nat × Word)),
    let c := p.cl.val
    let x := s.at_ p
    (s.cluster c).areq = [] → (s.cluster c).ares = (p.tile.val, n, w) :: rest →
    ∃ t, exec (.allocatorResultArrive p) s = .next t ∧ t = { s with tiles := t.tiles, clusters := t.clusters } ∧
      t.cluster c = { s.cluster c with ares := rest } ∧ (∀ d, d ≠ c → t.cluster d = s.cluster d) ∧
      t.at_ p = { x with ct := Tbl.set n w x.ct, ctWait := x.ctWait.filter (fun w => w.2 ≠ n) } ∧
      ∀ k, k ≠ s.tileKey c p.tile.val → Tbl.get Tile.fresh t.tiles k = Tbl.get Tile.fresh s.tiles k

/-- The allocator verbs ask once for the cluster and wait; their result reaches the counter they name (R257). -/
def Obligations.AllocatorVerbs : Prop := AllocatorAsksHolds ∧ AllocatorResultHolds

/-- The commit (R264 to R267, R321): a task that has ended everywhere, its turn come, passes its commit point with a record of
state 1 under its CRC and can no longer be aborted; not interrupted, each output flips to the version it was written in, no writer
is left, and the task retires as DONE, or as DONE_RETRIED after a re-run. Interrupted after its outputs have flipped it leaves a
record of state 2, within the write of the record one that has a free CRC. A full table of records is noted and waited for. A commit
repeated from its record retires the task and is counted in REDO; a record whose CRC fails is dropped and counted in BAD_CRC, and
the task has not committed. That the commit's interruption is an operand, and that a die which commits no output of a task lets its
clusters go by this command, are the model's forms (log 17). -/
def Obligations.TaskCommits : Prop :=
  (∀ (s : State) (k : Nat) (tk : Task), s.task? k = some tk → k = taskKey tk.die tk.seq → tk.die = s.die → tk.life = .running →
     s.endedEverywhere tk = true → s.turnToCommit tk = true → (∀ r ∈ s.commits, r.task ≠ k) →
     (s.commitsHere k tk = true → 512 ≤ s.commits.length → ∀ cut, exec (.taskCommit k cut) s = .next { s with fullSeen := true }) ∧
     (s.commitsHere k tk = true → s.commits.length < 512 →
       (∃ r : CommitRec, exec (.taskCommit k 2) s =
           .next ({ s with commits := s.commits ++ [r] }.setTask k { tk with life := .committing }) ∧
         r.task = k ∧ r.seq = tk.seq ∧ r.ctx = tk.ctx ∧ r.st = 1 ∧ r.fence = tk.signal ∧ r.value.toNat = tk.signalValue ∧
         r.ok = true) ∧
       (∃ r : CommitRec, exec (.taskCommit k 1) s = .next { s with commits := s.commits ++ [r], free := s.free + 1 } ∧
         r.task = k ∧ r.st = 1 ∧ r.crc = Config.freeWord s.free) ∧
       (∃ t r, exec (.taskCommit k 3) s = .next t ∧ t.commits = s.commits ++ [r] ∧ r.task = k ∧ r.st = 2 ∧ r.ok = true ∧
         (t.task? k).map (fun x => x.life) = some .committing) ∧
       (∃ t, exec (.taskCommit k 0) s = .next t ∧ Retired s t k tk (if tk.rerun then 0x01 else 0x00) ∧
         (∀ r ∈ t.commits, r.task ≠ k) ∧
         ∀ n ∈ tk.named, n.output = true → n.die = s.die → (s.obj n.slot).committed = true → (s.obj n.slot).writer = some k →
           (∀ m ∈ tk.named, m.slot = n.slot → m.ver = n.ver) → (t.obj n.slot).vsel = n.ver ∧ (t.obj n.slot).writer = none)) ∧
     (s.commitsHere k tk = false → ∀ cut, ∃ t, exec (.taskCommit k cut) s = .next t ∧
       Retired s t k tk (if tk.rerun then 0x01 else 0x00))) ∧
  (∀ (s : State) (k : Nat) (tk : Task), s.task? k = some tk → tk.die ≠ s.die → tk.life = .running → s.endedEverywhere tk = true →
     s.turnToCommit tk = true → (∀ r ∈ s.commits, r.task ≠ k) → s.outputsOf k tk = [] → ∀ cut, ∃ t,
     exec (.taskCommit k cut) s = .next t ∧ t.task? k = none ∧ t.commits = s.commits ∧ ∀ p, (t.port p).posted = (s.port p).posted) ∧
  (∀ (s : State) (k : Nat) (tk : Task) (r : CommitRec), s.task? k = some tk → k = taskKey tk.die tk.seq → tk.die = s.die →
     s.start.st = 7 → s.commits.find? (fun q => q.task = k) = some r →
     (r.ok = true → ∃ t, exec (.commitRedo k) s = .next t ∧ Retired s t k tk (if tk.rerun then 0x01 else 0x00) ∧
       t.redo = upTo 255 (s.redo + 1) ∧ ∀ q ∈ t.commits, q.task ≠ k) ∧
     (r.ok = false → (tk.life = .committing ∨ tk.life = .running) → ∃ t, exec (.commitRedo k) s = .next t ∧
       t = { s with badCrc := upTo 255 (s.badCrc + 1), commits := s.commits.filter (fun q => q.task ≠ k), tasks := t.tasks } ∧
       t.task? k = some { tk with life := .running }))

/-- Dispatch (R316, R317, R325): a head whose conditions hold leaves its queue and runs on the lowest idle clusters of its
partition; one that may go but whose turn has not come leaves a blocked queue open again; a head that waits for a fence or for a
held object blocks its queue with BLOCK 1 or 2; a head whose fence is poisoned ends with FENCE_POISONED. -/
def Obligations.TaskDispatches : Prop :=
  ∀ (s : State) (q : Fin 1024) (k : Nat) (tk : Task), s.mayDispatch = true → s.task? k = some tk →
    k = taskKey tk.die tk.seq → tk.die = s.die → tk.queue = q.val →
    let first : Prop := ({ s with free := s.free + 1 } : State).before q.val = false
    let blocked (cause : Nat) : HostQ :=
      let y := s.queue q.val
      { y with st := .blocked, block := cause, blockedAt := if y.st = QSt.blocked then y.blockedAt else s.now }
    (s.head q.val = .ready k → first → ∃ t, exec (.taskDispatch q) s = .next t ∧
      let cs := (s.clustersFor q.val tk.part).take tk.ncluster
      (t.task? k).map (fun x => x.life) = some .running ∧ (t.task? k).map (fun x => x.clusters) = some cs ∧
        k ∉ (t.queue q.val).waiting ∧ t.rrQueue = q.val ∧ ∀ c ∈ cs, (t.cluster c).task = some k) ∧
    ((s.head q.val = .ready k ∨ s.head q.val = .poisoned k) → ¬ first → (s.queue q.val).st = .blocked → exec (.taskDispatch q) s =
      .next ({ s with free := s.free + 1 }.setQueue q.val { s.queue q.val with st := .open_, block := 0 })) ∧
    (s.head q.val = .wait k → exec (.taskDispatch q) s = .next ({ s with free := s.free + 1 }.setQueue q.val (blocked 1))) ∧
    (s.head q.val = .held k → exec (.taskDispatch q) s = .next ({ s with free := s.free + 1 }.setQueue q.val (blocked 2))) ∧
    (s.head q.val = .poisoned k → first → ∃ t, exec (.taskDispatch q) s = .next t ∧ Retired s t k tk 0x24)

/-- A cluster that has ended its task starts the task that follows on there at once, without a wipe (R285); a follow-on that was
stopped with its predecessor starts anew on every cluster (R288). -/
def Obligations.FollowOnStarts : Prop :=
  ∀ (s : State) (q : Fin 1024) (cl : Fin 32) (p k : Nat) (f : Task), let c := cl.val
    let x := s.cluster c
    s.mayDispatch = true → x.task = some p → x.phase = .ended → s.usable c = true → s.endedFor p c = true →
    s.tasks.find? (fun o => o.2.after = some p && (o.2.die ≠ s.die || o.2.queue = q.val)) = some (k, f) → s.task? k = some f →
    s.policy f.part = 0 → ((f.life = .running ∧ c ∉ f.started) ∨ f.life = .held) →
    ∃ t, exec (.followOnStart q cl) s = .next t ∧ (t.task? k).map (fun y => (y.life, y.started)) =
        some (.running, c :: (if f.life = .held then [] else f.started)) ∧ t.mem = s.mem ∧ (t.cluster c).task = some k ∧ (t.cluster c).phase = .loading ∧
      (t.cluster c).rel = x.rel ∧ ∀ d, d ≠ c → t.cluster d = s.cluster d

/-- The wipe before another context's task (R26, R319): after 500 MCLK cycles the working space of every shelf of the cluster,
the spare's too, and of its larder reads zero, and the cluster goes on to its start. A stage copy (R289 to R292): the cluster's
slice of a weight object in the cellar stands in the stage buffer that its running task does not use, and the cluster has its
copy, waits for the others' or has started on it; that is so once every granule it needs is paid for and none is on its way (R275,
R276). An error met outside the cellar is a fault of class 4 of the run it is for (R292). That the bytes are moved as the copy ends is
the model's form (log 42). -/
def Obligations.StoresPrepared : Prop :=
  (∀ (s : State) (cl : Fin 32) (k : Nat) (tk : Task), let c := cl.val
     let x := s.cluster c
     x.task = some k → s.task? k = some tk → x.phase = .wiping → x.startAt + 500 ≤ s.now →
     ∃ t, exec (.wipeDone cl) s = .next t ∧
       (∀ n off, n < 17 → off < s.shelfWork tk.part → memGet t.mem (shelfAt (c * 17 + n) off) = 0) ∧
       (∀ off, off < s.larderWork tk.part → memGet t.mem (larderAt c off) = 0) ∧
       (t.cluster c).task = some k ∧ ((t.cluster c).phase = .loading ∨ (t.cluster c).phase = .staging ∨ (t.cluster c).phase = .ready)) ∧
  (∀ (s : State) (cl : Fin 32) (k : Nat) (tk : Task) (n : Named), let c := cl.val
     let x := s.cluster c
     let quarter := s.larderWork tk.part / 4
     let dst := larderAt c (2 * quarter + (1 - x.stageSel) * quarter)
     let from_ := (relBase s.die tk.layout + (tk.clusters.findIdx? (fun d => d = c)).getD 0) * quarter
     let o := s.obj n.slot
     x.stageFor = some k → s.task? k = some tk → x.staged = false → x.phase ≠ .wiping →
     tk.named.find? (fun m => m.idx = 66) = some n → n.die = s.die → o.tier = 2 → from_ + quarter ≤ o.size → (s.stageNeed c tk).2 ≤ x.stagePaid →
     s.onTheWay (fun g => g.stageOf c) = false → memWf s.mem = true →
     (∃ t, exec (.stageCopyDone cl true) s = .next t ∧
       ((t.cluster c).staged = true ∨ ((t.cluster c).task = some k ∧ (t.cluster c).phase = .loading)) ∧
       ∀ i, i < quarter → memGet t.mem (dst + i) =
         memGet s.mem (cellarAt (s.winAddr ((if o.committed && n.ver then o.base1 else o.base0) * 65536 + from_)) + i)) ∧
     (tk.life = .running → ∃ t, exec (.stageCopyDone cl false) s = .next t ∧
       (t.task? k).map (fun y => y.cause) = some (some (.fault 4 0 c 31)) ∧ (t.task? k).map (fun y => y.life) = some .aborting))

/-- Ends by a limit (R320, R330): a cluster of a running task that has reached the task's budget aborts it, and its clusters stop,
and one stopped with its predecessor ends by its budget all the same (R297); a queue's head that a wait, which still stands, has
blocked for WAIT_LIMIT ends with TIMEOUT. -/
def LimitsExpireHolds : Prop :=
  (∀ (s : State) (cl : Fin 32) (k : Nat) (tk : Task), let x := s.cluster cl.val
    x.task = some k → s.task? k = some tk → x.startAt + bitsN tk.desc.toNat 128 16 * 125 ≤ s.now →
    s.faults.stopped = false → s.faults.thermal = false →
    (tk.life = .running → (x.phase = .loading ∨ x.phase = .running ∨ x.phase = .staging ∨ x.phase = .ready) →
      ∃ t, exec (.budgetExpire cl) s = .next t ∧ t.mem = s.mem ∧ t.task? k = some { tk with life := .aborting, cause := some .budget } ∧
        ∀ c, c < 32 → (s.cluster c).task = some k → (t.cluster c).phase = .stopped) ∧
    (tk.life = .aborting → x.phase = .stopped → tk.cause = some .followOn →
      ∃ t, exec (.budgetExpire cl) s = .next t ∧ t.mem = s.mem ∧ t.task? k = some { tk with cause := some .budget })) ∧
  (∀ (s : State) (q : Fin 1024) (k : Nat) (tk : Task) (r : List Nat), let y := s.queue q.val
    y.waiting = k :: r → s.task? k = some tk → k = taskKey tk.die tk.seq → tk.die = s.die → y.st = .blocked → y.block = 1 →
    (∃ w ∈ tk.waits, s.waitOf w = 0) → (∀ w ∈ tk.waits, s.waitOf w ≠ 2) → s.faults.stopped = false → s.faults.thermal = false → y.blockedAt + y.waitLimit * 125000 ≤ s.now →
    ∃ t, exec (.waitLimitExpire q) s = .next t ∧ Retired s t k tk 0x22)

/-- The wait-cycle scan (R328, R329): every 125,000 MCLK cycles; the victim's head retires, and CYCLES counts it. Nothing
happens before the time has come. -/
def WaitCyclesHolds : Prop :=
  ∀ (s : State), let qs := (s.queues.filter (fun p => p.2.st = .blocked && decide (p.2.blockedAt + 125000 ≤ s.now))).map Prod.fst
    (s.now < s.scanAt + 125000 → exec .waitCycleScan s = .next s) ∧
    (s.scanAt + 125000 ≤ s.now → ∃ t, exec .waitCycleScan s = .next t ∧ t.scanAt = s.now ∧
      ∀ q k tk, s.victim qs = some q → s.headTask q = some (k, tk) → s.scanCycles < 65535 →
        t.task? k = none ∧ s.scanCycles < t.scanCycles)

/-- Task budgets, wait limits and the wait-cycle scan (R320, R328 to R330). -/
def Obligations.LimitsAndCycles : Prop := LimitsExpireHolds ∧ WaitCyclesHolds

/-- A heartbeat missed (R324): every context of the master is torn down with cause 4 and EXPIRED is set. A lost context's fences
are poisoned once its work has ended (R323). -/
def Obligations.ContextsLost : Prop :=
  (∀ (s : State) (m : BitVec 12) (i : Nat), i < 4096 → (s.ctx i).master = m → (s.ctx i).st = .live →
    (∀ p ∈ s.ctxs, p.1 ≠ i → p.2.master ≠ m) →
    Tbl.get 0 s.hbAt m.toNat + Tbl.get 0x64 s.hbLimit m.toNat * 125000 ≤ s.now →
    ∃ t, exec (.heartbeatMiss m) s = .next t ∧ Tbl.get false t.expired m.toNat = true ∧ (t.ctx i).cause = 4 ∧
      ((t.ctx i).st = .teardown ∨ (t.ctx i).st = .free)) ∧
  (∀ (s : State) (id : BitVec 12), (s.ctx id.toNat).poisonDue = true → s.tasksOf s.die id = [] →
    ∃ t, exec (.fencePoison id) s = .next t ∧ (t.ctx id.toNat).poisonDue = false ∧ t.tasks = s.tasks ∧
      ∀ i, (s.obj i).st = .live → (s.obj i).fence = true → (s.obj i).owner = id → (s.obj i).ownerDie = s.die →
        2 ^ 63 ≤ t.fenceWord i) ∧
  (∀ (s : State) (slot : BitVec 16), let i := slot.toNat
    let o := s.obj i
    o.st = .reclaim → ∃ t, exec (.reclaimDone slot) s = .next t ∧ t.obj i =
      { Obj.fresh with part := o.part, gen := o.gen, tier := o.tier, st := if o.gen = 0 then .retired else .free } ∧
      (o.fence = false → o.committed = false → o.tier = 1 → ∀ b, b < s.granules 1 o.size * 4096 →
        memGet t.mem (larderAt o.home (o.base0 * 4096 + b)) = 0))

/-- After an abort has drained (R259, R295, R423, R430): a budget ends the task with TIMEOUT, a NaN stop with NAN_TRAP; a first
fault takes the task's one allowance and holds it for its re-run, RETRIED counts it; a fault of a run that has had its re-run
ends it as UNCORRECTABLE. All of it waits until every die of the run has told that it drained there; a guest of another die is held
here and tells so (log 20). The place of a NaN stop among several ends is the model's choice (log 14), and no run here has two. -/
def Obligations.AbortsEnd : Prop :=
  ∀ (s : State) (k : Nat) (tk : Task), s.task? k = some tk → k = taskKey tk.die tk.seq → tk.die = s.die → tk.life = .aborting →
    tk.after = none → tk.allocs = [] → s.drainedRun k = true → s.starts = [] →
    (∀ d ∈ tk.layout, d.1 = s.die ∨ d.1 ∈ tk.drains) →
    (tk.cause = some .budget → ∃ t, exec (.abortDrainEnd k) s = .next t ∧ Retired s t k tk 0x22) ∧
    (tk.cause = some .nan → ∃ t, exec (.abortDrainEnd k) s = .next t ∧ Retired s t k tk 0x21) ∧
    (∀ c, tk.cause = some (.fault 11 0 c 31) → tk.used = false → ∃ t, exec (.abortDrainEnd k) s = .next t ∧
      (t.task? k).map (fun x => (x.life, x.used)) = some (.held, true) ∧ t.faults.retried = upTo 255 (s.faults.retried + 1)) ∧
    (∀ c, tk.cause = some (.fault 11 0 c 31) → tk.used = true → ∃ t, exec (.abortDrainEnd k) s = .next t ∧ Retired s t k tk 0x31) ∧
    (∀ die, die ≠ s.die → tk.cause = some .budget → ∃ t, exec (.abortDrainEnd k) (s.setTask k { tk with die := die }) = .next t ∧
      (t.task? k).map (fun x => x.life) = some .held ∧ t.linkOut = s.linkOut ++ [(die, .abort k true)])

/-- A fault of the network or of a dispatcher is one of class 11 of its run (R421); a held task runs again on the clusters it
stopped on (R424, R429). -/
def Obligations.FaultsAndReruns : Prop :=
  (∀ (s : State) (k : Nat) (tk : Task), s.task? k = some tk → tk.life = .running →
    ∃ t, exec (.networkFault k) s = .next t ∧
      t.task? k = some { tk with life := .aborting, cause := some (.fault 11 0 (tk.clusters.headD 0) 31) }) ∧
  (∀ (s : State) (k : Nat) (tk : Task), s.task? k = some tk → tk.life = .held → tk.die = s.die → tk.after = none →
    s.faults.stopped = false → s.faults.thermal = false → tk.cause ≠ some .followOn → tk.cause.isSome = true →
    (∀ c ∈ tk.clusters, (s.cluster c).task = some k ∧ (s.cluster c).phase = .stopped) →
    ∃ t, exec (.rerunRelease k) s = .next t ∧ (t.task? k).map (fun x => (x.life, x.rerun, x.cause, x.illegal)) =
      some (.running, true, none, 0) ∧ ∀ c ∈ tk.clusters, (t.cluster c).task = some k)

/-- The spare (R141, R145, R425, R426): after the copy the failed tile's bytes stand in the spare's shelf and the spare answers to
its number, counted in SUBST; a release is asked for; after the copy back the original tile has its shelf again. -/
def Obligations.Spares : Prop :=
  (∀ (s : State) (cl : Fin 32) (k : Nat) (tk : Task) (cls addr tile : Nat), let c := cl.val
    (s.cluster c).task = some k → s.task? k = some tk → tk.life = .copying → tk.cause = some (.fault cls addr c tile) → tile < 16 → memWf s.mem = true → s.starts = [] →
    ∃ t, exec (.spareCopyDone cl none) s = .next t ∧ (t.cluster c).spare.active = true ∧ (t.cluster c).spare.target = tile ∧
      (t.cluster c).phys tile = 16 ∧ t.faults.subst = upTo 255 (s.faults.subst + 1) ∧
      (t.task? k).map (fun x => x.life) = some .held ∧
      ∀ off, off < s.shelfSize → memGet t.mem (shelfAt (c * 17 + 16) off) = memGet s.mem (shelfAt (c * 17 + tile) off)) ∧
  (∀ (s : State) (cl : Fin 32), let c := cl.val
    let x := s.cluster c
    s.unusable c 31 = false → x.spare.active = true → x.spare.fused = false →
    ∃ t, exec (.spareRelease cl) s = .next t ∧ t.mem = s.mem ∧ (t.cluster c).spare = { x.spare with release := true }) ∧
  (∀ (s : State) (cl : Fin 32), let c := cl.val
    let x := s.cluster c
    x.phase = .copying → x.spare.target < 16 → x.task = none → memWf s.mem = true →
    ∃ t, exec (.spareCopyBackDone cl true) s = .next t ∧ (t.cluster c).spare.active = false ∧ (t.cluster c).phase = .idle ∧
      ∀ off, off < s.shelfSize →
        memGet t.mem (shelfAt (c * 17 + x.spare.target) off) = memGet s.mem (shelfAt (c * 17 + 16) off))

/-! ### Cellar ports and the extension field (09, 10, 12) -/

/-- An access after one granule of it is answered: a read's 64 bytes take their half of the line, the other half stays. -/
def TookGranule (a b : Access) (half : Nat) (data : Option Entry) : Prop :=
  b = { a with have_ := a.have_ + 1, data := b.data } ∧
    match data with
    | none => b.data = a.data
    | some d => b.data.extractLsb' (512 * half) 512 = d ∧
        b.data.extractLsb' (512 * (1 - half)) 512 = a.data.extractLsb' (512 * (1 - half)) 512

/-- What the cellar holds after a granule was written. -/
def GranuleHolds (s t : State) (addr : Nat) (d : Entry) : Prop :=
  ∀ b, memGet t.mem b =
    if cellarAt addr ≤ b ∧ b < cellarAt addr + 64 then BitVec.ofNat 8 (d.toNat / 256 ^ (b - cellarAt addr)) else memGet s.mem b

/-- The cellar ports (R27, R250 to R252, R275 to R277, R347 to R351): a step that is offered alone, unregulated and without an
access before it, and lies in the cellar window, is granted and its granule joins the read queue of the port that R250 gives, if
that has room; a port raises its three credits
by their shares, the class with the most owns the cycle and pays 100, and the oldest granule goes out under a free tag; a
response frees the tag and takes effect, and one with code 2 or 3 is a fault of its run; a tag that is late is quarantined and
its run aborted. Which of the free tags is taken (the lowest, log 23) and which run a fault of code 2 is charged to are the
model's choices (log 35). -/
def Obligations.CellarPorts : Prop :=
  (∀ (s : State) (c : Fin 32) (i : Fin 16) (a : Access) (x : Nat) (tk : Task), let y := s.tile c.val i.val
    let port := (bitsN x 6 4 ^^^ bitsN x 10 4) ^^^ (bitsN x 14 4 ^^^ bitsN x 18 4)
    (s.cluster c.val).phase = .running → (∀ d, d ≠ c.val → (s.cluster d).phase ≠ .running) → i.val < s.tpc →
    y.offers = [a] → (∀ j, j ≠ i.val → (s.tile c.val j).offers = []) → y.clear a = true → a.rd = some (.cellar x) → x % 64 = 0 →
    a.width = 64 → s.cellarLost = false → s.inWindow x = true → s.clusterTask c.val = some tk → tk.die = s.die →
    (s.queue tk.queue).rateRd = 0 → (s.cport port).rdQ.length < 64 → (∀ d, (s.cluster d).stageFor = none) →
    ∃ t, exec .cellarStepGrant s = .next t ∧ t.mem = s.mem ∧ t.lastGrant = c.val ∧ (t.cluster c.val).lastTile = i.val ∧
      (t.cport port).rdQ = (s.cport port).rdQ ++ [{ addr := x, wr := none, src := .access (s.tileKey c.val i.val) a.id 0, cls := 0 }] ∧
      (t.tile c.val i.val).accs = y.accs.map (fun o => if o.id = a.id then { o with granted := true } else o)) ∧
  (∀ (s : State) (port : Fin 16) (tag : Nat) (g : Gran) (rest : List Gran), let c := s.cport port.val
    let a0 := c.cred0 + s.shape.bwRead
    let a1 := c.cred1 + s.shape.bwWrite
    let a2 := c.cred2 + ((100 - s.shape.bwRead - s.shape.bwWrite : Nat) : Int)
    c.down = false → s.cellarLost = false → s.start.st = 7 → c.waitQ = [] → c.freeTag = some tag →
    c.rdQ = g :: rest → c.wrQ = [] → c.rmQ = [] →
    ∃ d, exec (.cellarPortArbitrate port) s = .next { s with cellar := Tbl.set port.val d s.cellar } ∧
      d = { c with rdQ := rest, tags := c.tags ++ [{ tag := tag, gran := g, at_ := s.now }], cred0 := d.cred0, cred1 := d.cred1,
                   cred2 := d.cred2 } ∧
      ((d.cred0 = a0 - 100 ∧ d.cred1 = a1 ∧ d.cred2 = a2 ∧ a1 ≤ a0 ∧ a2 ≤ a0) ∨
        (d.cred0 = a0 ∧ d.cred1 = a1 - 100 ∧ d.cred2 = a2 ∧ a0 < a1 ∧ a2 ≤ a1) ∨
        (d.cred0 = a0 ∧ d.cred1 = a1 ∧ d.cred2 = a2 - 100 ∧ a0 < a2 ∧ a1 < a2))) ∧
  (∀ (s : State) (port : Fin 16) (tag : BitVec 8) (err : BitVec 2) (data : Entry) (wr : Option Entry) (g : Gran) (at_ : Nat)
      (key id half : Nat) (a : Access), let c := s.cport port.val
    let x := Tbl.get Tile.fresh s.tiles key
    let command := if wr.isSome then Instr.cellarWriteResponse port tag err else .cellarReadResponse port tag err data
    c.tags.find? (fun r => r.tag = tag.toNat) = some { tag := tag.toNat, gran := g, at_ := at_ } →
    g.src = .access key id half → half < 2 → g.wr = wr → x.accs.find? (fun o => o.id = id) = some a →
    (s.cluster (key / 17)).phase ≠ .stopped →
    (err.toNat ≤ 1 → memWf s.mem = true → g.be = BitVec.allOnes 64 → (wr.isSome = true → s.writeClash (key / 17) (s.logical key) a = false) →
      ∃ t b, exec command s = .next t ∧ t = { s with mem := t.mem, tiles := t.tiles, cellar := t.cellar } ∧
      (t.cport port.val).tags = c.tags.filter (fun r => r.tag ≠ tag.toNat) ∧
      (t.cport port.val).corr = (if err.toNat = 1 then upTo 65535 (c.corr + 1) else c.corr) ∧
      GranuleHolds s t g.addr (wr.getD data) ∧
      (Tbl.get Tile.fresh t.tiles key).accs.find? (fun o => o.id = id) = some b ∧
      TookGranule a b half (if wr.isSome then none else some data)) ∧
    (2 ≤ err.toNat → ∀ k tk, (s.cluster (key / 17)).task = some k → s.task? k = some tk → tk.life = .running →
      ∃ t, exec command s = .next t ∧ (t.cport port.val).tags = c.tags.filter (fun r => r.tag ≠ tag.toNat) ∧
        (t.cport port.val).uncorr = upTo 255 (c.uncorr + 1) ∧
        t.task? k = some { tk with life := .aborting, cause := some (.fault 8 g.addr (key / 17) 31) } ∧
        (err.toNat = 3 → t.mem = s.mem))) ∧
  (∀ (s : State) (port : Fin 16) (tag : BitVec 8) (g : Gran) (at_ key id half k : Nat) (tk : Task), let c := s.cport port.val
    c.tags.find? (fun r => r.tag = tag.toNat) = some { tag := tag.toNat, gran := g, at_ := at_ } → g.src = .access key id half →
    at_ + s.cellarLimit * 125 ≤ s.now → c.quar.length < 63 → c.down = false → (s.cluster (key / 17)).task = some k → s.task? k = some tk →
    tk.life = .running →
    ∃ t, exec (.cellarTagTimeout port tag) s = .next t ∧ (t.cport port.val).quar = tag.toNat :: c.quar ∧
      (t.cport port.val).tags = c.tags.filter (fun r => r.tag ≠ tag.toNat) ∧ (t.cport port.val).timeouts = upTo 255 (c.timeouts + 1) ∧
      (t.cport port.val).down = c.down ∧
      t.task? k = some { tk with life := .aborting, cause := some (.fault 9 g.addr (key / 17) 31) })

/-- Results of the extension field (R213, R355, R356): a result of the current epoch enters XQ under the token of the oldest issue
that is owed one, which is then owed one fewer; one of another epoch is counted as stale, and one that no issue is owed as unowed. While
XQ is full none is taken, whatever it is.
A frame of the field that reads back as it was written counts as read (R412). -/
def Obligations.ExtensionResults : Prop :=
  (∀ (s : State) (cl : Fin 32) (tile epoch : Fin 16) (data : Entry), let c := cl.val
    let x := s.cluster c
    let y := s.tile c tile.val
    s.hasExt = true → s.start.st = 7 → Tbl.get false s.reload.held (c / 4) = false → tile.val < s.tpc →
    (64 ≤ (y.queue 15).length → exec (.extResult cl tile epoch data) s = .next s) ∧
    ((y.queue 15).length < 64 →
    (epoch.val = x.extEpoch → ∀ e r, y.extOwed = e :: r →
      ∃ z, exec (.extResult cl tile epoch data) s = .next { s with tiles := Tbl.set (s.tileKey c tile.val) z s.tiles } ∧
        z = { y with queues := z.queues, extOwed := z.extOwed } ∧ (∀ q, q ≠ 15 → z.queue q = y.queue q) ∧
        z.queue 15 = y.queue 15 ++ [{ data := data, tok := tokenOf e.tmode e.tok e.first e.srcTok, ready := true, id := 0 }] ∧
        z.extOwed = if e.owed ≤ 1 then r else { e with owed := e.owed - 1, first := false } :: r) ∧
    (epoch.val ≠ x.extEpoch → exec (.extResult cl tile epoch data) s =
      .next { s with clusters := Tbl.set c { x with extStale := upTo 255 (x.extStale + 1) } s.clusters }) ∧
    (epoch.val = x.extEpoch → y.extOwed = [] → exec (.extResult cl tile epoch data) s =
      .next { s with clusters := Tbl.set c { x with extUnowed := upTo 255 (x.extUnowed + 1) } s.clusters }))) ∧
  (∀ (s : State) (cl : Fin 32) (index : Fin 128), let c := cl.val
    let x := s.cluster c
    let d := 896 * (c / 4) + 256 + 128 * (c % 4) + index.val
    x.phase = .running → x.paraEnded = true → x.extUsed = true → x.extIn = [] → s.scrubs d = true →
    (∀ a flips, x.extAt = some a → s.now < a + s.scrubInterval 16 → exec (.extEndRead cl index flips) s = .next s) ∧
    (frameCrc (Tbl.get 0 s.fabric d) = Tbl.get (frameCrc 0) s.attic.shadowCrc d →
    (∀ a, x.extAt = some a → a + s.scrubInterval 16 ≤ s.now) →
    ∃ t, exec (.extEndRead cl index 0) s = .next t ∧ t = { s with fabric := t.fabric, clusters := t.clusters } ∧
      (∀ e, Tbl.get 0 t.fabric e = Tbl.get 0 s.fabric e) ∧ index.val ∈ (t.cluster c).extRead ∧
      (t.cluster c).extAt = some s.now ∧ ∀ i, i ∈ (t.cluster c).extRead → i = index.val ∨ i ∈ x.extRead))

/-! ### Front ports and host commands (11, 12, 19) -/

/-- A front port takes a command beat (R334, R336, R340, R345): the die serves, the port is not hung and has room, the master is
admitted there, and NWD is the command's. -/
def Taken (s : State) (port : Fin 4) (b : CmdBeat) (nwd : Nat) : Prop :=
  s.start.st = 7 ∧ s.scrub.running = true ∧ (s.port port.val).hung = false ∧
    (s.port port.val).cmds.length + (if (s.port port.val).offered.any (fun r => r.kind ≠ 1) then 1 else 0) < 1024 ∧
    s.portOf b.mid.toNat = some port.val ∧ b.nwd.toNat = nwd

/-- A command of a port that has its answer (R338). -/
def answerTo (s : State) (op : Nat) (b : CmdBeat) (status result : Nat) : PCmd :=
  { op := op, tag := b.tag, mid := b.mid, arg0 := b.arg0, owed := b.nwd.toNat, wd := [], at_ := s.now,
    ans := some { status := status, result := BitVec.ofNat 64 result, cont := none }, task := none }

/-- A master's heartbeat is refreshed by its command (R324). -/
def heard (s : State) (b : CmdBeat) : State := { s with hbAt := Tbl.set b.mid.toNat s.now s.hbAt }

/-- A state with a command behind the earlier ones of a port. -/
def behind (u : State) (port : Fin 4) (c : PCmd) : State :=
  { u with front := Tbl.set port.val { u.port port.val with cmds := (u.port port.val).cmds ++ [c] } u.front }

/-- Memory is as before but for the scratch bytes that tasks wrote (R270). -/
def KeepsMemory (s t : State) : Prop :=
  ∀ a, (∀ p ∈ s.tasks, ∀ r ∈ p.2.writes, a < r.1 ∨ r.1 + r.2 ≤ a) → memGet t.mem a = memGet s.mem a

/-- A state in which a command is answered. -/
def answered (u : State) (port : Fin 4) (op : Nat) (b : CmdBeat) (status result : Nat) : State :=
  behind u port (answerTo u op b status result)

/-- A command has been answered behind the earlier ones of its port. -/
def Answered (s t : State) (port : Fin 4) (op : Nat) (b : CmdBeat) (status result : Nat) : Prop :=
  (t.port port.val).cmds = (s.port port.val).cmds ++ [answerTo s op b status result] ∧
    t.hbAt = Tbl.set b.mid.toNat s.now s.hbAt

/-- Commands on contexts and queues (R298 to R302, R324): CTX_CREATE takes the lowest free ID with its counters cleared, CTX_RESET is
held in DRAINING and acts in LOST, CTX_TEARDOWN loses the context with cause 5, HEARTBEAT refreshes the heartbeat alone,
QUEUE_OPEN binds an idle queue of the context's partition, QUEUE_CLOSE retires what waits there. -/
def Obligations.ContextCommands : Prop :=
  ∀ (s : State) (port : Fin 4) (b : CmdBeat), Taken s port b 0 →
    let id := bitsN b.arg0.toNat 0 12
    let x := s.ctx id
    (∀ i, let part := bitsN b.arg0.toNat 0 3
      s.partPresent part = true → i < 4096 → (s.ctx i).st = .free → (∀ j, j < i → (s.ctx j).st ≠ .free) →
      exec (.ctxCreate port b) s = .next (answered { heard s b with
        ctxs := Tbl.set i { Ctx.fresh with master := b.mid, part := part, st := .live } s.ctxs } port 0x01 b 0x00 i)) ∧
    (s.partPresent (bitsN b.arg0.toNat 0 3) = false →
      exec (.ctxCreate port b) s = .next (answered (heard s b) port 0x01 b 0x10 0)) ∧
    (x.st = .draining → x.master = b.mid → exec (.ctxReset port b) s =
      .next (answered { heard s b with ctxs := Tbl.set id { x with resetPend := true } s.ctxs } port 0x02 b 0x00 0)) ∧
    (x.st = .lost → x.master = b.mid → x.poisonDue = false → s.tasksOf s.die (BitVec.ofNat 12 id) = [] →
      ∃ t, exec (.ctxReset port b) s = .next t ∧ Answered s t port 0x02 b 0x00 0 ∧ t.mem = s.mem ∧
        t.ctx id = { x with st := .live, resetPend := false, stall := [], stream := none, trap := [0, 0, 0, 0], escSat := 0,
                            allocFail := 0 } ∧
        ∀ q, (s.queue q).ctx.toNat = id → (s.queue q).st = .draining → (t.queue q).st = .open_) ∧
    (x.st = .live ∨ x.st = .teardown → x.master = b.mid →
      exec (.ctxReset port b) s = .next (answered (heard s b) port 0x02 b 0x10 0)) ∧
    (x.st = .live ∨ x.st = .draining ∨ x.st = .lost → x.master = b.mid →
      ∃ t, exec (.ctxTeardown port b) s = .next t ∧ Answered s t port 0x03 b 0x00 0 ∧ KeepsMemory s t ∧ (t.ctx id).cause = 5 ∧
        ((t.ctx id).st = .teardown ∨ (t.ctx id).st = .free)) ∧
    exec (.heartbeat port b) s = .next (answered (heard s b) port 0x04 b 0x00 0) ∧
    (let own := bitsN b.arg1.toNat 0 12
      let q := bitsN b.arg0.toNat 0 10
      let y := s.queue q
      (s.ctx own).st = .live → (s.ctx own).master = b.mid → q < s.queueTotal → y.st = .idle → s.queuePart q = (s.ctx own).part →
      exec (.queueOpen port b) s = .next (answered { heard s b with
        queues := Tbl.set q { y with st := .open_, ctx := BitVec.ofNat 12 own, part := (s.ctx own).part, block := 0 } s.queues }
        port 0x05 b 0x00 0)) ∧
    (let q := bitsN b.arg0.toNat 0 10
      let y := s.queue q
      y.st = .open_ ∨ y.st = .blocked → (s.ctx y.ctx.toNat).master = b.mid →
      ∃ t, exec (.queueClose port b) s = .next t ∧ Answered s t port 0x06 b 0x00 y.waiting.length ∧ KeepsMemory s t ∧
        (t.queue q).st = .idle ∧ (t.queue q).waiting = [] ∧ ∀ k ∈ y.waiting, t.task? k = none)

/-- An object belongs to a context of this die that a command's master owns (R301). -/
def Owns (s : State) (b : CmdBeat) (i : Nat) : Prop :=
  (s.obj i).ownerDie = s.die ∧ (s.ctx (s.obj i).owner.toNat).st ≠ .free ∧ (s.ctx (s.obj i).owner.toNat).master = b.mid

/-- The handle that a command names. -/
def named (b : CmdBeat) : Word := BitVec.ofNat 32 (bitsN b.arg0.toNat 0 32)

/-- An object that is freed or removed goes on to RECLAIM when nothing holds it (R305). -/
def settled (o : Obj) : Obj :=
  if (o.st = .freed ∨ o.st = .removed) ∧ o.refs = 0 ∧ o.readers0 = 0 ∧ o.readers1 = 0 then { o with st := .reclaim } else o

/-- Commands on objects (R253 to R256, R303 to R310, R326, R338): OBJ_ALLOC takes the lowest free range and slot and zeroes it,
OBJ_FREE advances the generation at once, REF_ADD and REF_DROP count, PIN and UNPIN hold a version, SHARE marks, DESC_READ reads
the descriptor, FENCE_SIGNAL raises a fence, never lowers it, and keeps its poison. -/
def Obligations.ObjectCommands : Prop :=
  ∀ (s : State) (port : Fin 4) (b : CmdBeat), Taken s port b 0 →
    let v : Bool := decide (bitsN b.arg1.toNat 0 1 = 1)
    (∀ i base, let id := bitsN b.arg0.toNat 0 12
      let tier := bitsN b.arg0.toNat 12 2
      let size := bitsN b.arg1.toNat 0 32
      let x := s.ctx id
      let home := if tier = 2 then 0 else bitsN b.arg0.toNat 16 5
      let n := s.granules tier size
      let o : Obj := { Obj.fresh with part := x.part, owner := BitVec.ofNat 12 id, ownerDie := s.die, tier := tier, home := home,
                                      size := size, st := .live, base0 := base,
                                      gen := if (s.obj i).gen = 0 then 1 else (s.obj i).gen }
      bitsN b.arg0.toNat 22 2 = 0 → x.st = .live → x.master = b.mid → tier < 3 → size ≠ 0 →
      (tier ≠ 2 → s.active home = true ∧ s.shape.part home = x.part) → i < 65536 → (s.obj i).st = .free →
      (∀ j, j < i → (s.obj j).st ≠ .free) → lowestFree (s.room x.part tier) (s.taken tier home) n = some base →
      ∃ t, exec (.objAlloc port b) s = .next t ∧ t.obj i = o ∧ (∀ j, j ≠ i → t.obj j = s.obj j) ∧
        Answered s t port 0x08 b 0x00 ((x.part * 2 ^ 29 + o.gen * 2 ^ 20 + s.die * 2 ^ 16 + i) % 2 ^ 32) ∧
        (tier = 1 → ∀ a, memGet t.mem a =
          if larderAt home (base * 4096) ≤ a ∧ a < larderAt home (base * 4096) + n * 4096 then 0 else memGet s.mem a)) ∧
    (∀ i, s.live (named b) none = some i → Owns s b i → let o := s.obj i
      let w := s.fenceWord i
      (∃ t, exec (.objFree port b) s = .next t ∧ Answered s t port 0x09 b 0x00 0 ∧ t.mem = s.mem ∧
        t.obj i = settled { o with st := .freed, gen := if o.gen = 511 then 0 else o.gen + 1, draft := none } ∧
        ∀ j, j ≠ i → t.obj j = s.obj j) ∧
      exec (.refAdd port b) s = .next (answered { heard s b with
        objs := Tbl.set i { o with refs := o.refs + 1 } s.objs } port 0x0A b 0x00 (o.refs + 1)) ∧
      (o.policy = none → o.fence = false → let ver := o.committed && s.current o
        let base := if ver then o.base1 else o.base0
        exec (.pin port b) s = .next (answered { heard s b with
          objs := Tbl.set i (if ver then { o with readers1 := o.readers1 + 1, pins1 := o.pins1 + 1 }
            else { o with readers0 := o.readers0 + 1, pins0 := o.pins0 + 1 }) s.objs } port 0x0C b 0x00
          ((if ver then 2 ^ 63 else 0) +
            (if o.tier = 2 then (s.shape.winBase * 2 ^ 20 + base * 65536) % 2 ^ 48 else 0)))) ∧
      (o.policy = none → exec (.share port b) s =
        .next (answered { heard s b with objs := Tbl.set i { o with shared := v } s.objs } port 0x0E b 0x00 0)) ∧
      (∀ p, o.policy = some p → p.shareOk = false → v = true →
        exec (.share port b) s = .next (answered (heard s b) port 0x0E b 0x10 0)) ∧
      (o.fence = true → memWf s.mem = true → b.arg1.toNat < 2 ^ 63 →
        let w' := if w % 2 ^ 63 < b.arg1.toNat then w - w % 2 ^ 63 + b.arg1.toNat else w
        ∃ t, exec (.fenceSignal port b) s = .next t ∧ Answered s t port 0x11 b 0x00 w' ∧ t.fenceWord i = w' ∧ t.objs = s.objs ∧
          ∀ a, (a < s.fenceAt o ∨ s.fenceAt o + 16 ≤ a) → memGet t.mem a = memGet s.mem a)) ∧
    (∀ i, s.known (named b) = some i → Owns s b i → let o := s.obj i
      (o.refs ≠ 0 → ∃ t, exec (.refDrop port b) s = .next t ∧ Answered s t port 0x0B b 0x00 (o.refs - 1) ∧ t.mem = s.mem ∧
        t.obj i = settled { o with refs := o.refs - 1 } ∧ ∀ j, j ≠ i → t.obj j = s.obj j) ∧
      (o.refs = 0 → exec (.refDrop port b) s = .next (answered (heard s b) port 0x0B b 0x10 0)) ∧
      ((if v then o.pins1 else o.pins0) ≠ 0 → ∃ t, exec (.unpin port b) s = .next t ∧ Answered s t port 0x0D b 0x00 0 ∧
        t.mem = s.mem ∧ t.obj i = settled (if v then { o with readers1 := o.readers1 - 1, pins1 := o.pins1 - 1 }
          else { o with readers0 := o.readers0 - 1, pins0 := o.pins0 - 1 }) ∧ ∀ j, j ≠ i → t.obj j = s.obj j) ∧
      ((if v then o.pins1 else o.pins0) = 0 →
        exec (.unpin port b) s = .next (answered (heard s b) port 0x0D b 0x10 0)) ∧
      (o.tier < 4 → o.home < 32 → ∃ a y c, exec (.descRead port b) s = .next (behind (heard s b) port c) ∧
        c = { answerTo s 0x0F b 0 0 with ans := some { status := 0, result := a, cont := some y } } ∧
        a.toNat % 2 ^ 32 = (s.handle i).toNat ∧ bitsN a.toNat 32 12 = o.owner.toNat ∧ bitsN a.toNat 44 2 = o.tier ∧
        bitN a.toNat 46 = o.committed ∧ bitN a.toNat 47 = o.shared ∧ bitN a.toNat 51 = o.vsel ∧ bitN a.toNat 52 = o.fence ∧
        bitsN a.toNat 56 8 = o.home ∧ bitsN y.toNat 0 32 = o.size % 2 ^ 32 ∧ bitsN y.toNat 128 16 = o.readers0 % 2 ^ 16 ∧
        bitsN y.toNat 144 16 = o.readers1 % 2 ^ 16 ∧ bitsN y.toNat 160 32 = o.refs % 2 ^ 32))

/-- SUBMIT and its write data (R312 to R315, R336, R337, R344): the command waits for its two beats; a SUBMIT that passes every check
is accepted under the next sequence, at the back of its queue, and answered with it; a beat joins the oldest command that awaits
one, one with another tag rejects that command, one that no command awaits is counted; data that are late reject their command.
An acceptance is stated for a descriptor without an object list. -/
def Obligations.Submissions : Prop :=
  (∀ (s : State) (port : Fin 4) (b : CmdBeat), Taken s port b 2 →
    exec (.submit port b []) s = .next (behind (heard s b) port { answerTo s 0x10 b 0 0 with ans := none })) ∧
  (∀ (s : State) (port : Fin 4) (b : CmdBeat), Taken s port b b.nwd.toNat → b.nwd.toNat ≠ 2 → ∃ t,
    exec (.submit port b []) s = .next t ∧ Answered s t port 0x10 b 0x10 0 ∧
      (t.port port.val).badField = upTo 65535 ((s.port port.val).badField + 1) ∧ t.tasks = s.tasks) ∧
  (∀ (s : State) (port : Fin 4) (b : CmdBeat) (w1 w2 : WdBeat), let q := bitsN b.arg0.toNat 0 10
    let y := s.queue q
    let x := s.ctx y.ctx.toNat
    let a : Ask := { desc := BitVec.ofNat 512 (w1.data.toNat + w2.data.toNat * 2 ^ 256), objs := [] }
    let seq := s.taskSeq + 1
    let k := taskKey s.die seq
    Taken s port b 2 → w1.tag = b.tag → w2.tag = b.tag → (∀ c ∈ (s.port port.val).cmds, c.owed = 0) →
    y.st = .open_ ∨ y.st = .blocked → q < s.queueTotal → x.master = b.mid → x.st = .live → a.nobj = 0 →
    s.askOk x.part a = true → s.handlesOk y.ctx x.part a = true → s.sealsOk x.part a = true → (s.unitCheck x.part a).1 = true →
    s.tasks.length < 16384 → (s.pendingOf q).length < y.qdepth →
    ∃ t tk, exec (.submit port b [w1, w2]) s = .next t ∧ t.mem = s.mem ∧ t.taskSeq = seq ∧ t.task? k = some tk ∧
      tk.life = .pending ∧ tk.seq = seq ∧ tk.desc = a.desc ∧ tk.queue = q ∧ tk.ctx = y.ctx ∧ tk.part = x.part ∧ tk.tag = b.tag ∧
      tk.mid = b.mid ∧ tk.port = port.val ∧ (t.queue q).waiting = y.waiting ++ [k] ∧
      ∃ c, (t.port port.val).cmds = (s.port port.val).cmds ++ [c] ∧ c.owed = 0 ∧ c.task = some k ∧
        c.ans = some { status := 0, result := seq.zeroExtend 64, cont := none }) ∧
  (∀ (s : State) (port : Fin 4) (w : WdBeat), let p := s.port port.val
    let refused (c : PCmd) : PCmd :=
      { c with owed := 0, wd := [], ans := some (c.ans.getD { status := 0x10, result := 0, cont := none }) }
    let next (q : Front) : State := { s with front := Tbl.set port.val q s.front }
    s.start.st = 7 → s.scrub.running = true → p.hung = false →
    ((∀ c ∈ p.cmds, c.owed = 0) →
      exec (.writeDataBeat port w) s = .next (next { p with wdErr := upTo 65535 (p.wdErr + 1) })) ∧
    (∀ older c newer, p.cmds = older ++ c :: newer → (∀ o ∈ older, o.owed = 0) → c.owed ≠ 0 →
      (w.tag = c.tag → 2 ≤ c.owed → c.ans = none → exec (.writeDataBeat port w) s =
        .next (next { p with cmds := older ++ { c with owed := c.owed - 1, wd := c.wd ++ [w.data] } :: newer })) ∧
      (w.tag ≠ c.tag → exec (.writeDataBeat port w) s =
        .next (next { p with cmds := older ++ refused c :: newer, wdErr := upTo 65535 (p.wdErr + 1) })) ∧
      (c.at_ + s.wdLimit * 125 ≤ s.now → exec (.wdTimeout port) s =
        .next (next { p with cmds := older ++ refused c :: newer, wdErr := upTo 65535 (p.wdErr + 1) }))))

/-- The response channel and the interrupt lines of a front port (R332, R335, R338, R339, R343 to R345): the oldest command's answer
is offered, a read descriptor's continuation behind it, else a completion, which waits for the pulse of the fence that its commit
advanced; a beat that is offered for RESP_LIMIT hangs the port,
which drops what it holds, and its masters are lost; FRONT_CLEAR ends that; a withdrawn beat is counted; a line pulses at most
every two MCLK cycles; a beat holds its fields where Table 12-2 puts them, and an OP code of no command is rejected and counted. -/
def Obligations.FrontPorts : Prop :=
  ∀ (s : State) (port : Fin 4), let p := s.port port.val
    let next (q : Front) : State := { s with front := Tbl.set port.val q s.front }
    (s.start.st = 7 → s.scrub.running = true → p.hung = false →
      (∀ o e r, p.offered = o :: e :: r →
        exec (.answerOffer port) s = .next (next { p with offered := e :: r, offeredAt := some s.now })) ∧
      (p.offered.length ≤ 1 →
        (∀ c r a, p.cmds = c :: r → c.owed = 0 → c.ans = some a → let first : RespBeat :=
            { op := c.op, tag := c.tag, mid := c.mid, kind := 0, status := a.status, result := a.result, record := 0 }
          (a.cont = none → c.op ≠ 0x0F → exec (.answerOffer port) s =
            .next (next { p with offered := [first], offeredAt := some s.now, cmds := r })) ∧
          (∀ y, a.cont = some y → ∃ second, exec (.answerOffer port) s =
              .next (next { p with offered := [first, second], offeredAt := some s.now, cmds := r }) ∧
            second.kind = 2 ∧ second.tag = c.tag ∧ second.result.toNat = bitsN y.toNat 0 64 ∧
            second.record.toNat = bitsN y.toNat 64 128)) ∧
        (∀ k e r, p.cmds = [] → p.posted = (k, e) :: r →
          ((∀ x ∈ p.pulseFirst, x.1 = k → (Tbl.get Irq.fresh (s.port x.2.1).irq x.2.2).want = false) → exec (.answerOffer port) s =
            .next (next { p with offered := [e], offeredAt := some s.now, posted := r,
                                 pulseFirst := p.pulseFirst.filter (fun x => r.any (fun y => y.1 = x.1)) })) ∧
          (∀ x ∈ p.pulseFirst, x.1 = k → (Tbl.get Irq.fresh (s.port x.2.1).irq x.2.2).want = true → exec (.answerOffer port) s =
            .next (next { p with offered := [], offeredAt := none }))))) ∧
    (∀ t0, p.offeredAt = some t0 → p.hung = false → t0 + s.respLimit * 125000 ≤ s.now →
      ∃ t, exec (.respTimeout port) s = .next t ∧ KeepsMemory s t ∧ (t.port port.val).hung = true ∧ (t.port port.val).offered = [] ∧
        (t.port port.val).cmds = [] ∧ (t.port port.val).posted = [] ∧
        ∀ i, i < 4096 → (s.ctx i).st ≠ .free → s.portOf (s.ctx i).master.toNat = some port.val →
          Tbl.get false t.expired (s.ctx i).master.toNat = true) ∧
    (p.hung = true → exec (.frontClear port) s =
      .next (next { p with hung := false, cmds := [], offered := [], offeredAt := none, posted := [], pulseFirst := [] })) ∧
    exec (.beatWithdrawn port) s = .next (next { p with proto := upTo 255 (p.proto + 1) }) ∧
    (∀ line : Fin 16, let i := Tbl.get Irq.fresh p.irq line.val
      i.want = true → s.start.st = 7 → (∀ t0, i.lastAt = some t0 → t0 + 2 ≤ s.now) → exec (.irqPulse port line) s =
        .next (next { p with irq := Tbl.set line.val { want := false, pulses := i.pulses + 1, lastAt := some s.now } p.irq })) ∧
    (∀ (b : CmdBeat) (op : Byte), Taken s port b b.nwd.toNat → (op = 0 ∨ op = 7 ∨ (0x11 < op.toNat ∧ op ≠ 0x40 ∧ op ≠ 0x41)) →
      ∃ t, exec (.reservedOpCommand port b op) s = .next t ∧ Answered s t port op.toNat b 0x10 0 ∧
        t = { s with front := t.front, hbAt := t.hbAt } ∧ (t.port port.val).badField = upTo 65535 (p.badField + 1)) ∧
    (∀ (op : Byte) (tag : BitVec 10) (mid : BitVec 12) (nwd : BitVec 2) (arg0 arg1 : BitVec 64) (wd : List WdBeat),
      let x : BitVec 256 := BitVec.ofNat 256 (op.toNat + tag.toNat * 2 ^ 8 + mid.toNat * 2 ^ 18 + nwd.toNat * 2 ^ 32 +
        arg0.toNat * 2 ^ 64 + arg1.toNat * 2 ^ 128)
      let b : CmdBeat := { tag := tag, mid := mid, nwd := nwd, arg0 := arg0, arg1 := arg1 }
      beatOp x = op ∧ beatOf x = b ∧ (op = 0x10 → commandOf port x wd = .submit port b wd) ∧
      (op = 0 ∨ op = 7 ∨ (0x11 < op.toNat ∧ op ≠ 0x40 ∧ op ≠ 0x41) → commandOf port x wd = .reservedOpCommand port b op))

/-- The management endpoint as a sender of accesses; the others are masters. -/
def endpoint : Fin 4097 := 4096

/-- A session of the management endpoint that holds a role: 0 SERVICE, 1 ADMIN, 2 KEYS, 3 PARCEL, 4 IMAGE (R463, R464). -/
def Holds (s : State) (sess : Fin 2) (x : Session) (role : Nat) : Prop :=
  Tbl.find sess.val s.sec.sessions = some x ∧ x.finished = true ∧ x.roles.getLsbD role = true

/-- The security state after a message of a session, with an answer (R463). -/
def replied (s : State) (sess : Fin 2) (x : Session) (a : MgmtAns) : Sec :=
  { s.sec with sessions := Tbl.set sess.val { x with at_ := s.now } s.sec.sessions, lastAns := a }

/-- A broadcast or group write of TILE_HEALTH.CLEAR: the tiles of the named clusters that can be reached have their counts
cleared, and BCAST_SKIP counts the others (R518 to R521). -/
def HealthCleared (s t : State) (named : Nat → Bool) : Prop :=
  t = { s with hw := t.hw, skipLast := t.skipLast, skipTotal := t.skipTotal } ∧
    (∀ c i, c < 32 → i < 17 → t.silicon (c * 17 + i) =
      if named c = true ∧ s.unusable c i = false then { s.silicon (c * 17 + i) with corr := 0, csum := 0, detect := 0 }
      else s.silicon (c * 17 + i)) ∧
    t.skipLast = ((List.range 32).filter named |>.map (fun c => ((List.range 17).filter (s.unusable c)).length)).sum ∧
    t.skipTotal = upTo 65535 (s.skipTotal + t.skipLast)

/-- Control-space accesses (R144, R278, R279, R282, R331, R342, R418, R464, R470, R517 to R531): what the clearing writes,
QSTREAM, broadcasts and single register writes change; who may not write changes nothing; a front port's and the endpoint's
reads and writes are the same accesses, answered; errors of the endpoint's accesses are recorded in CTL_ERR. That the endpoint
may write every register, and the other fields of REJECT_CLEAR, are the model's readings (log 27, log 29). -/
def Obligations.ControlSpace : Prop :=
  ∀ (s : State), let e := endpoint
    exec (.fullSeenClear e) s = .next { s with fullSeen := false } ∧
    exec (.rejectClear e) s = .next { s with reload := { s.reload with reject := false, region := s.reload.region % 8 } } ∧
    exec (.lostClear e) s = .next { s with scrub := { s.scrub with lost := false } } ∧
    exec (.vbatLostClear e) s = .next { s with sec := { s.sec with vbatLost := false } } ∧
    (∀ f : Fin 5, let x := Tbl.get { addr := 0, cause := 0, err := false } s.ctlErr f.val
      exec (.ctlErrClear e f) s = .next { s with ctlErr := Tbl.set f.val { x with err := false } s.ctlErr }) ∧
    (∀ m : BitVec 12, let n := Tbl.get 0x64 s.hbLimit m.toNat
      10 ≤ n → n ≤ 1000 → exec (.expiredClear e m) s =
        .next { s with hbLimit := Tbl.set m.toNat n s.hbLimit, expired := Tbl.set m.toNat false s.expired }) ∧
    (∀ (cl : Fin 32) (i : Fin 17), let key := cl.val * 17 + i.val
      (s.unusable cl.val i.val = false → exec (.tileHealthClear e cl i) s = .next { s with
        hw := Tbl.set key { s.silicon key with corr := 0, csum := 0, detect := 0 } s.hw }) ∧
      (s.unusable cl.val i.val = true → exec (.tileHealthClear e cl i) s = .next { s with
        ctlErr := Tbl.set 4 { addr := (cl.val * 2 ^ 19 + i.val * 2 ^ 14 + 0x24) / 4, cause := 2, err := true } s.ctlErr })) ∧
    (∀ (who : Fin 4097) (context : BitVec 12) (cause : Fin 32), let x := s.ctx context.toNat
      who = e ∨ (x.st ≠ .free ∧ x.master.toNat = who.val) → exec (.ctxStallRead who context cause) s = .next { s with
        latch := Tbl.set (who.val * 2 ^ 24 + (0x400000 + 256 * context.toNat + 8 * cause.val))
          (BitVec.ofNat 32 (Tbl.get 0 x.stall cause.val / 2 ^ 32)) s.latch }) ∧
    (∀ (q : Fin 1024) (val : Word), s.queueState q.val ≠ .absent → let y := s.queue q.val
      let depth := if bitsN val.toNat 12 8 < 1 then 1 else bitsN val.toNat 12 8
      let out := bitsN val.toNat 20 9
      let rd : HostQ := { y with rateRd := bitsN val.toNat 0 12, depthRd := depth, bucketRd := depth * 1024,
                                 outstanding := if out < 1 then 1 else if 256 < out then 256 else out }
      let wr : HostQ := { y with rateWr := bitsN val.toNat 0 12, depthWr := depth, bucketWr := depth * 1024 }
      exec (.qstreamWrite e q 0 val) s = .next { s with queues := Tbl.set q.val rd s.queues } ∧
      exec (.qstreamWrite e q 1 val) s = .next { s with queues := Tbl.set q.val wr s.queues }) ∧
    (∀ i val, i < 16 →
      exec (.registerWrite e (BitVec.ofNat 26 (0x3000180 + 4 * i)) val) s = .next { s with groups := Tbl.set i val s.groups } ∧
      ∀ who : Fin 4097, who ≠ e → exec (.registerWrite who (BitVec.ofNat 26 (0x3000180 + 4 * i)) val) s = .next s) ∧
    (∀ (addr : BitVec 26) (val : Word), addr.toNat % 4 ≠ 0 → exec (.registerWrite e addr val) s =
      .next { s with ctlErr := Tbl.set 4 { addr := addr.toNat / 4, cause := 4, err := true } s.ctlErr }) ∧
    (∃ t, exec (.broadcastWrite e (BitVec.ofNat 26 (30 * 2 ^ 14 + 0x24)) 1) s = .next t ∧ HealthCleared s t (fun _ => true)) ∧
    (∀ g, g < 16 → ∃ t, exec (.groupWrite e (BitVec.ofNat 26 (g * 2 ^ 20 + 30 * 2 ^ 14 + 0x24)) 1) s = .next t ∧
      HealthCleared s t (fun c => (Tbl.get 0 s.groups g).getLsbD c)) ∧
    (∀ (port : Fin 4) (b : CmdBeat), Taken s port b 0 →
      (b.arg0 = 0x3000000 → exec (.ctlRd port b) s = .next (answered (heard s b) port 0x40 b 0x00 s.build.toNat)) ∧
      (b.arg0 = 0x3000280 → exec (.ctlRd port b) s = .next (answered (heard s b) port 0x40 b 0x00 0)) ∧
      (∀ q, q < 1024 → b.arg0.toNat = 0x3006004 + 8 * q → let y := s.queue q
        let depth := bitsN b.arg1.toNat 0 12
        let limit := bitsN b.arg1.toNat 12 16
        let z : HostQ := { y with qdepth := if depth < 1 then 1 else if 4095 < depth then 4095 else depth,
                                  waitLimit := if limit < 2 then 2 else if 60000 < limit then 60000 else limit }
        y.st = .open_ ∨ y.st = .blocked → (s.ctx y.ctx.toNat).master = b.mid →
        exec (.ctlWr port b) s = .next (answered { heard s b with queues := Tbl.set q z s.queues } port 0x41 b 0x00 0))) ∧
    (∀ (sess : Fin 2) (x : Session),
      (Holds s sess x 0 → s.sec.fallback = false → exec (.mgmtCtlRd sess 0x3000000) s =
        .next { s with sec := replied s sess x (.value s.build) }) ∧
      (Holds s sess x 0 → s.sec.fallback = true → exec (.mgmtCtlRd sess 0x3000000) s =
        .next { s with sec := replied s sess x .spdmError }) ∧
      (Holds s sess x 1 → s.sec.fallback = false → ∀ i val, i < 16 →
        exec (.mgmtCtlWr sess (BitVec.ofNat 26 (0x3000180 + 4 * i)) val) s =
          .next { s with groups := Tbl.set i val s.groups, sec := replied s sess x .ok }) ∧
      (Tbl.find sess.val s.sec.sessions = some x → x.roles.getLsbD 1 = false → ∀ i val, i < 16 →
        exec (.mgmtCtlWr sess (BitVec.ofNat 26 (0x3000180 + 4 * i)) val) s =
          .next { s with sec := replied s sess x .spdmError }))

/-! ### Sessions, keys, images and parcels (13, 16) -/

/-- A session that ends takes its PROBE_EN with it; when all end, any of them does (R447, R466, R467). -/
def cleared (x : Sec) : Sec := { x with sessions := [], probeEn := x.probeEn && !x.sessions.any (fun p => p.2.probe) }

/-- Sessions, lockouts and fallback (R447, R448, R463, R466 to R469): KEY_EXCHANGE opens a session for a requester whose root
is an anchor, FINISH makes it usable, a failed authentication is counted and from FAIL_LIMIT on locks out and begins fallback;
a session ends on request or after 60 s; a lockout ends with its time; fallback ends by RESUME or after 1 s of answers. How
fallback of each cause ends at its limit is the model's reading (log 30). A probe pin is low without PROBE_EN, before the die serves
and at select 0 (R364, R399). -/
def Obligations.Sessions : Prop :=
  (∀ (s : State) (root : BitVec 384) (roles : BitVec 5) (valid : Bool),
    (s.sec.lockedUntil.isSome = true →
      exec (.keyExchange valid root roles) s = .next { s with sec := { s.sec with lastAns := .busy } } ∧
      exec .challenge s = .next { s with sec := { s.sec with lastAns := .busy } }) ∧
    (s.sec.lockedUntil = none → exec .challenge s = .next { s with sec := { s.sec with lastAns := .ok } }) ∧
    (s.sec.lockedUntil = none → root ∈ s.sec.anchors → ∀ i, i < 2 → Tbl.find i s.sec.sessions = none →
      (∀ j, j < i → Tbl.find j s.sec.sessions ≠ none) → exec (.keyExchange true root roles) s = .next { s with sec := { s.sec with
        sessions := Tbl.set i { roles := roles, at_ := s.now, finished := false, probe := false } s.sec.sessions,
        lastAns := .value (BitVec.ofNat 32 i) } }) ∧
    (s.sec.lockedUntil = none → (valid = false ∨ root ∉ s.sec.anchors) →
      let n := upTo 255 (s.sec.fails + 1)
      let least := max 1 (bitsN s.hard.fallback.toNat 0 4)
      (n < least → exec (.keyExchange valid root roles) s =
        .next { s with sec := { s.sec with fails := n, lastAns := .spdmError } }) ∧
      (least ≤ n → s.sec.fallback = false → exec (.keyExchange valid root roles) s = .next { s with sec := { cleared s.sec with
        fails := n, lastAns := .spdmError, lockouts := upTo 255 (s.sec.lockouts + 1), fallback := true, cause := 3, answerAt := s.now,
        lockedUntil := some (s.now + 2 ^ min (bitsN s.hard.fallback.toNat 4 4 + s.sec.lockouts) (bitsN s.hard.fallback.toNat 8 4) *
          125000000) } }))) ∧
  (∀ (s : State) (sess : Fin 2) (x : Session), Tbl.find sess.val s.sec.sessions = some x →
    let ended : Sec := { s.sec with sessions := Tbl.del sess.val s.sec.sessions, probeEn := s.sec.probeEn && !x.probe }
    (x.finished = false → exec (.finish sess true) s = .next { s with sec := { s.sec with
      sessions := Tbl.set sess.val { x with finished := true, at_ := s.now } s.sec.sessions, fails := 0, lockouts := 0,
      lastAns := .ok } }) ∧
    (x.finished = false → s.sec.fails + 1 < max 1 (bitsN s.hard.fallback.toNat 0 4) → exec (.finish sess false) s =
      .next { s with sec := { ended with fails := s.sec.fails + 1, lastAns := .spdmError } }) ∧
    exec (.endSession sess) s = .next { s with sec := { ended with lastAns := .ok } } ∧
    (x.at_ + 60 * 125000000 ≤ s.now → exec (.sessionTimeout sess) s = .next { s with sec := ended }) ∧
    exec (.spdmHeartbeat sess) s = .next { s with sec := replied s sess x .ok } ∧
    (Holds s sess x 1 → s.sec.fallback = true → s.sec.cause = 3 → exec (.resume sess) s =
      .next { s with sec := { cleared (replied s sess x .ok) with fallback := false, cause := 0 } })) ∧
  (∀ (s : State) (t : Nat), s.sec.lockedUntil = some t → t ≤ s.now →
    exec .lockoutEnd s = .next { s with sec := { s.sec with lockedUntil := none } }) ∧
  (∀ (s : State), s.start.st = 7 → s.sec.fallback = false → exec .endpointWatchdogMiss s =
    .next { s with sec := { cleared s.sec with fallback := true, cause := 2, answerAt := s.now } }) ∧
  (∀ (s : State), s.sec.fallback = true → s.sec.cause ≠ 3 → s.start.st = 7 → s.scrub.running = true →
    s.sec.answerAt + 125000000 ≤ s.now →
    exec .fallbackEnd s = .next { s with sec := { cleared s.sec with fallback := false, cause := 0 } }) ∧
  (∀ (s : State) (pin : Fin 8) (sel : Byte),
    exec (.probeSelect pin sel) s = .next { s with sec := { s.sec with selects := Tbl.set pin.val sel s.sec.selects } } ∧
    ((s.start.st ≠ 7 ∨ s.sec.probeEn = false ∨ Tbl.get 0 s.sec.selects pin.val = 0) → s.prb pin.val = false) ∧
    exec .vbatKeyLoss s = .next { s with sec := { s.sec with slots := [], vbatLost := true } })

/-- What the endpoint does for a session that holds the role (R368, R369, R384, R398, R446, R448, R449, R454 to R456, R464,
R465): it replaces the attic image, holds a shape pending, restarts a failed load, sets and clears keys, programs anchors,
opens a parcel into hidden objects that become live and sealed at once, and reports its identity under a signature. Parcels are
stated for one slice at home in a larder. That an image write waits for a partial reload and what a RESTART keeps are the
model's readings (log 39), and so are the parcel codes (log 41). -/
def Obligations.ManagementCommands : Prop :=
  (∀ (s : State) (sess : Fin 2) (x : Session),
    (∀ hdr segs, Holds s sess x 4 → (imageBytes hdr segs).length ≤ 11 * 2 ^ 20 → s.sec.opening = none →
      ((s.reload.st = 0 ∨ 4 ≤ s.reload.st) → exec (.imageWrite sess hdr segs) s = .next { s with
        sec := replied s sess x .ok,
        attic := { s.attic with valid := true, len := (imageBytes hdr segs).length, crc := crc32c (imageBytes hdr segs),
                                writes := (s.attic.writes + 1) % 2 ^ 32, hdr := hdr, segs := segs, waiting := [] } }) ∧
      (1 ≤ s.reload.st → s.reload.st ≤ 3 → exec (.imageWrite sess hdr segs) s = .next { s with
        sec := replied s sess x .ok, attic := { s.attic with waiting := s.attic.waiting ++ [(hdr, segs)] } })) ∧
    (∀ seg, Holds s sess x 1 → s.sec.fallback = false → let c := s.checkSegment seg true (decide (segLen seg ≤ seg.body.length))
      (∀ n, c = .failed n → ∃ t, exec (.shapeLoad sess seg.hdr seg.body) s = .next t ∧
        t = { s with sec := replied s sess x (.code n), cfg := t.cfg } ∧ t.pendShape = s.pendShape ∧
        t.cfg.first = if s.cfg.first = 0 then n else s.cfg.first) ∧
      (∀ st, c = .passed st → ∃ t, exec (.shapeLoad sess seg.hdr seg.body) s = .next t ∧
        t = { s with sec := replied s sess x .ok, cfg := t.cfg, pendShape := t.pendShape, report := t.report } ∧
        t.pendShape = some (s.checkShape st.recs).1 ∧ t.report.state = 2)) ∧
    (Holds s sess x 1 → s.start.head = true → s.start.st = 5 ∨ s.start.st = 8 → ∃ t, exec (.restart sess) s = .next t ∧
      t.start.st = 0 ∧ t.start.restartOut = true ∧ t.start.head = true ∧ t.cfg = s.cfg ∧ t.fabric = [] ∧
      t.attic = { s.attic with waiting := [] } ∧ t.sec.slots = s.sec.slots ∧ t.sec.anchors = s.sec.anchors ∧
      t.sec.lastAns = .ok ∧ ∀ a, memGet t.mem a = if 2 ^ 50 ≤ a then memGet s.mem a else 0) ∧
    (Holds s sess x 2 → s.sec.fallback = false →
      (∀ (slot : Fin 16) (key : BitVec 256), slot.val < 8 → exec (.keySet sess slot key) s = .next { s with sec :=
        { replied s sess x .ok with slots := Tbl.set slot.val key s.sec.slots } }) ∧
      (∀ key : BitVec 256, s.sec.fuseKey = none → exec (.keySet sess 15 key) s = .next { s with sec :=
        { replied s sess x .ok with fuseKey := some key } }) ∧
      (∀ key k0 : BitVec 256, s.sec.fuseKey = some k0 → exec (.keySet sess 15 key) s =
        .next { s with sec := replied s sess x .spdmError }) ∧
      ∀ slot : Fin 8, exec (.keyClear sess slot) s = .next { s with sec :=
        { replied s sess x .ok with slots := Tbl.del slot.val s.sec.slots } }) ∧
    (∀ digest a, Holds s sess x 1 → s.sec.anchors = [a] → exec (.anchorSet (some sess) digest) s =
      .next { s with sec := { replied s sess x .ok with anchors := [a, digest] } }) ∧
    (∀ (owner : BitVec 12) (src : Word) (sl : Slice) (i j e base : Nat), let c := s.ctx owner.toNat
      Holds s sess x 3 → s.sec.fallback = false → s.sec.opening = none → s.sec.openWaits = none →
      (s.reload.st = 0 ∨ 4 ≤ s.reload.st) → c.st = .live → s.live src none = some i → (s.obj i).owner = owner → (s.obj i).ownerDie = s.die →
      s.parcelOk i = true → sl.tier = 1 → s.sliceOk (s.srcNat i 8 4 - 512) c.part sl = true → s.recipient i = some e →
      let g := s.unwrap i e
      (g.ok = false → ∃ t, exec (.parcelOpen sess owner src 1 [sl]) s = .next t ∧ t = { s with sec := t.sec } ∧
        t.sec.parcelCode = 4 ∧ t.sec.opening = none) ∧
      (g.ok = true →
      j < 65536 → (s.obj j).st = .free → (∀ k, k < j → (s.obj k).st ≠ .free) →
      lowestFree (s.room c.part 1) (s.taken 1 sl.home.val) (s.granules 1 sl.len) = some base →
      ∃ t, exec (.parcelOpen sess owner src 1 [sl]) s = .next t ∧
        t.sec.opening = some { owner := owner, src := i, slots := [j], slices := [sl], hdr := BitVec.ofNat 1536 (s.srcNat i 0 192),
                               key := BitVec.ofNat 256 (leNat g.plain) } ∧
        t.obj j = { Obj.fresh with part := c.part, owner := owner, ownerDie := s.die, tier := 1, home := sl.home.val,
                                   size := sl.len, hidden := true, st := .live, base0 := base,
                                   gen := if (s.obj j).gen = 0 then 1 else (s.obj j).gen } ∧
        t.obj i = { s.obj i with refs := (s.obj i).refs + 1 } ∧ ∀ k, k ≠ i → k ≠ j → t.obj k = s.obj k))) ∧
  (∀ (s : State) (digest : BitVec 384), s.sec.anchors = [] → exec (.anchorSet none digest) s =
    .next { s with sec := { s.sec with anchors := [digest], lastAns := .ok } }) ∧
  (∀ (s : State) (nonce : BitVec 256), ∃ body sig,
    exec (.identity nonce) s = .next { s with free := s.free + 1, sec := { s.sec with lastAns := .report body sig } } ∧
    bitsN body.toNat 0 32 = 0x5A494431 ∧ bitsN body.toNat 64 32 = s.build.toNat ∧ bitsN body.toNat 128 256 = nonce.toNat ∧
    leBytes 97 (bitsN body.toNat (8 * 48) 776) = identityPub s.sec.identity ∧
    leBytes 97 (bitsN body.toNat (8 * 145) 776) = agreementPub s.sec.identity ∧
    ∃ r z, (r, z) = ecdsa s.sec.identity (sha384 (leBytes 256 body.toNat)) s.free ∧ leBytes 96 sig.toNat = beBytes 48 r ++ beBytes 48 z) ∧
  (∀ (s : State) (o : Opening) (sl : Slice) (i : Nat), let x := s.obj i
    let g := s.payloadOf o
    s.sec.opening = some o → s.sec.openWaits = none → s.attic.waiting = [] → o.slots = [i] → o.slices = [sl] → o.src ≠ i →
    (s.ctx o.owner.toNat).st = .live → x.st = .live → x.hidden = true → x.tier = 1 → x.committed = false → memWf s.mem = true →
    (g.ok = true → policyOk (g.plain.take 512) o.len = true → 512 + sl.off + sl.len ≤ g.plain.length →
      ∃ t pol, exec (.parcelOpenDone true) s = .next t ∧ t.sec.opening = none ∧ t.sec.parcelCode = 0 ∧
        t.sec.lastAns = .handles [s.handle i] ∧ t.sec.opened = upTo 65535 (s.sec.opened + 1) ∧
        t.obj i = { x with hidden := false, policy := some pol } ∧ pol.shareOk = bitN (g.plain.getD 1 0).toNat 0 ∧
        (∀ k, k < sl.len → memGet t.mem (larderAt x.home (x.base0 * 4096 + k)) = g.plain.getD (512 + sl.off + k) 0) ∧
        ∀ a, (a < larderAt x.home (x.base0 * 4096) ∨ larderAt x.home (x.base0 * 4096) + sl.len ≤ a) →
          memGet t.mem a = memGet s.mem a) ∧
    (∀ readOk, readOk = false ∨ g.ok = false → ∃ t, exec (.parcelOpenDone readOk) s = .next t ∧ t.sec.opening = none ∧ t.sec.parcelCode = 5 ∧ t.mem = s.mem ∧
      ((t.obj i).st = .freed ∨ (t.obj i).st = .reclaim)))

/-! ### Start-up, reload and scrub (13, 14) -/

/-- A load that has failed (R382, R387): FAILED with ERROR_N, the first code kept. -/
def LoadFailed (s t : State) (code : Nat) : Prop :=
  t.start.st = 8 ∧ t.start.errorN = true ∧ t.start.done = false ∧ t.mem = s.mem ∧
    t.cfg.first = (if s.cfg.first = 0 then code else s.cfg.first) ∧ t.cfg.seen.getLsbD (code - 1) = true

/-- What survives the loss of power (R393, R267): fuses, keys, attic, cellar bytes, and the commit records that R267 repeats, with
their tasks and the objects that those write. -/
def PowerLost (s t : State) : Prop :=
  t.start.st = 0 ∧ t.attic = { s.attic with waiting := [] } ∧ t.build = s.build ∧ t.grade = s.grade ∧
    t.sec.fuseKey = s.sec.fuseKey ∧ t.sec.anchors = s.sec.anchors ∧ t.sec.slots = s.sec.slots ∧
    t.commits = s.commits ∧ t.tasks = s.tasks.filter (fun p => s.commits.any (fun r => r.task = p.1)) ∧
    (∀ i k, (s.obj i).writer = some k → (∃ r ∈ s.commits, r.task = k) → t.obj i = s.obj i) ∧ t.tiles = [] ∧ t.fabric = [] ∧
    ∀ a, memGet t.mem a = if 2 ^ 50 ≤ a then memGet s.mem a else 0

/-- Broadcast and group modes admit only the management endpoint (R520): of any other accessor a read of them answers 0 and a write
changes nothing, and neither leaves a trace (R342); the endpoint's write of TILE_HEALTH.CLEAR in either mode is carried out. -/
def Obligations.BroadcastAdmits : Prop :=
  ∀ (s : State), (∀ (who : Fin 4097) (addr : BitVec 26) (val : Word), who ≠ endpoint → bitsN addr.toNat 24 2 = 1 ∨ bitsN addr.toNat 24 2 = 2 →
      s.ctlRead who.val addr = (0, s) ∧ exec (.broadcastWrite who addr val) s = .next s ∧ exec (.groupWrite who addr val) s = .next s ∧
      ∀ (port : Fin 4) (b : CmdBeat), b.mid.toNat = who.val → b.arg0.toNat % 2 ^ 26 = addr.toNat → b.arg0.toNat % 4 = 0 →
        Taken s port b 0 →
        exec (.ctlRd port b) s = .next (answered (heard s b) port 0x40 b 0x00 0) ∧
        exec (.ctlWr port b) s = .next (answered (heard s b) port 0x41 b 0x00 0)) ∧
    (∃ t, exec (.broadcastWrite endpoint (BitVec.ofNat 26 (30 * 2 ^ 14 + 0x24)) 1) s = .next t ∧ HealthCleared s t (fun _ => true)) ∧
    (∀ g, g < 16 → ∃ t, exec (.groupWrite endpoint (BitVec.ofNat 26 (g * 2 ^ 20 + 30 * 2 ^ 14 + 0x24)) 1) s = .next t ∧
      HealthCleared s t (fun c => (Tbl.get 0 s.groups g).getLsbD c))

/-- A shape that arrives while one is pending is checked and held, its report replaces the other's, and the discarded shape leaves no
trace: the state after it is the same whatever shape was pending and whatever was reported of it (R41). -/
def Obligations.DiscardedShape : Prop :=
  ∀ (s : State) (sess : Fin 2) (x : Session) (seg : Seg) (st : Stream) (old : Option Shape) (r : ShapeReport),
    Holds s sess x 1 → s.sec.fallback = false → s.checkSegment seg true (decide (segLen seg ≤ seg.body.length)) = .passed st →
    ∃ t, exec (.shapeLoad sess seg.hdr seg.body) s = .next t ∧
      exec (.shapeLoad sess seg.hdr seg.body) { s with pendShape := old, report := r } = .next t ∧
      t.pendShape = some (s.checkShape st.recs).1 ∧ t.report = reportOf (s.checkShape st.recs).2 2

/-- Start-up (R359, R377, R380 to R382, R385, R387 to R401, R445, R471): POWER_GOOD samples the straps; the head die checks its image
and sends the other segments on; another die keeps the first segment it has not and sends the rest, checks it when its last byte has
come, and fails early where the bytes stay away for the gap limit; a segment that fails a check fails the load with its code;
verified frames are written, every flip-flop holds its FF_INIT, and DONE is released; stages follow each other after 64 cycles,
and with the fourth the die serves. What a loss of power keeps, the gap limit before the root has locked, and how the straps stand
before they are sampled are the model's choices (log 39, log 43, log 5). -/
def Obligations.StartUp : Prop :=
  ∀ (s : State), let u := s.start
    (∀ head inpkg, ∃ t, exec (.powerGood head inpkg) s = .next t ∧ PowerLost s t ∧ t.start.head = head ∧ t.start.inpkg = inpkg) ∧
    (∃ t, exec .powerLoss s = .next t ∧ PowerLost s t) ∧
    exec .rootLock s = .next { s with power := { s.power with rootLock := true } } ∧
    exec .chainCodingError s = .next { s with start := { u with rxBroken := true } } ∧
    (u.st = 7 → exec .chainRestart s = .next s) ∧
    (u.st ≠ 7 → ∃ t, exec .chainRestart s = .next t ∧ t.start.st = 0 ∧ t.start.restartOut = true ∧ t.cfg = s.cfg ∧
      t.attic = { s.attic with waiting := [] } ∧ t.fabric = []) ∧
    (∀ ok, u.st = 0 → u.head = false → ∃ t, exec (.powerStateEnd ok) s = .next t ∧ t.start = { u with st := 2, rxAt := s.now } ∧
      t.sec = { s.sec with idOk := ok } ∧ ∀ r, r < 8 → s.present r = true → t.domainSt (192 + r) = 2) ∧
    (∀ ok, u.st = 0 → u.head = true → s.attic.fault = 0 → ∃ t, exec (.powerStateEnd ok) s = .next t ∧
      t.start = { u with st := 1, pos := 0, rxAt := s.now, rx := some (s.attic.seg 0), chainOut := u.chainOut ++
        [(if u.inpkg then 1 else 2, (List.range (s.attic.nseg - 1)).map (fun i => s.attic.sent (i + 1)))] }) ∧
    (∀ ok c, u.st = 0 → u.head = true → s.attic.fault = c → c ≠ 0 → ∃ t, exec (.powerStateEnd ok) s = .next t ∧
      LoadFailed s t c) ∧
    (∀ (pos : Byte), u.st = 2 → u.head = false → u.rx = none → u.rxBroken = false →
      let sent (segs : List Seg) : List (Byte × List Seg) :=
        u.chainOut ++ [(BitVec.ofNat 8 (if u.inpkg then pos.toNat + 1 else 2 * (pos.toNat / 2 + 1)), segs)]
      (pos.toNat < 16 → exec (.chainStream pos []) s = .next { s with start := { u with
        pos := pos.toNat, rxAt := s.now, chainOut := sent [] } }) ∧
      (∀ (g : Seg) (rest : List Seg), pos.toNat < 16 → exec (.chainStream pos (g :: rest)) s = .next { s with start := { u with
        st := if segLen g ≤ g.body.length then 3 else 2, pos := pos.toNat, rx := some g, rxAt := s.now, chainOut := sent rest } }) ∧
      (∀ segs, 16 ≤ pos.toNat → exec (.chainStream pos segs) s = .next { s with start := { u with rxBroken := true } })) ∧
    (u.st = 2 → (u.rx = none ∨ ∃ g, u.rx = some g ∧ g.body.length < segLen g) →
      u.rxAt + (if s.power.rootLock = true then 1250000 else 1136364) ≤ s.now →
      ∃ t, exec .gapLimitExpire s = .next t ∧ LoadFailed s t 0x0D ∧ t.cfg.early = true ∧ t.cfg.seen.getLsbD 13 = true) ∧
    (∀ g seg last, u.rx = some g → segLen g ≤ seg.body.length →
      ((u.st = 1 ∨ u.st = 2 ∨ u.st = 3) ∧ segLen g ≤ g.body.length ∧ seg = g) ∨
        (u.st = 2 ∧ u.head = false ∧ g.body.length < segLen g ∧ seg = { g with body := g.body ++ last }) →
      let c := s.checkSegment seg false (!u.head || s.attic.inside 0)
      (∀ n, c = .failed n → ∃ t, exec (.segmentReceived last) s = .next t ∧ LoadFailed s t n) ∧
      (∀ x, c = .passed x → ∃ t, exec (.segmentReceived last) s = .next t ∧ t.start.st = 4 ∧
        t.start.frames = x.frames.map (fun f => (f.1, f.2.1)) ∧ t.start.maps = x.maps ∧ t.start.shapeRecs = x.recs ∧
        t.fabric = s.fabric)) ∧
    (∀ seg, u.rx = some seg → u.st = 4 →
      (∃ t, exec (.frameWrite false) s = .next t ∧ LoadFailed s t 0x0F ∧ t.cfg.skipped = u.skipped) ∧
      (s.power.rootLock = true → ∃ t, exec (.frameWrite true) s = .next t ∧ t.start.st = 5 ∧ t.start.done = true ∧ t.cfg.first = 0 ∧
        t.shape = (s.checkShape u.shapeRecs).1 ∧ t.pendShape = none ∧ t.cfg.skipped = u.skipped ∧
        (∀ d, d < 7440 → s.loads d = true → Tbl.get 0 t.fabric d = Tbl.get 0 u.frames d ∧
          Tbl.get 0 t.attic.shadow d = Tbl.get 0 u.frames d ∧ (d < 7424 → t.flopsOf d = frameInit (Tbl.get 0 u.frames d))) ∧
        ∀ a, (∀ p ∈ s.tasks, ∀ r ∈ p.2.writes, a < r.1 ∨ r.1 + r.2 ≤ a) →
          memGet t.mem a = if 2 ^ 50 ≤ a then memGet s.mem a else 0) ∧
      (s.power.rootLock = false → ∃ t, exec (.frameWrite true) s = .next t ∧ t.start.st = 8 ∧ t.start.noLock = true ∧
        t.start.errorN = true ∧ t.cfg.skipped = u.skipped)) ∧
    (u.st = 5 → exec .doneHigh s = .next { s with start := { u with st := 6, stage := 1, stageAt := s.now } }) ∧
    (u.st = 5 → u.waitAt + 125000000 ≤ s.now → exec .doneLate s = .next { s with start := { u with doneLate := true } }) ∧
    (u.st = 6 → u.stageAt + 64 ≤ s.now →
      (u.stage = 1 → exec .releaseStage s = .next { s with start := { u with stage := 2, stageAt := s.now } }) ∧
      (u.stage = 2 → ∃ t, exec .releaseStage s = .next t ∧ t.start = { u with stage := 3, stageAt := s.now } ∧
        t.scrub.running = true ∧ ∀ p, p < 2 → s.hasSpan p = true → (t.spanOf p).st = 1) ∧
      (u.stage = 3 → exec .releaseStage s = .next { s with
        start := { u with stage := 4, stageAt := s.now, st := 7 },
        sec := { cleared s.sec with fallback := false, cause := 0 } })) ∧
    (∀ sh, s.pendShape = some sh →
      (s.mayApply sh = true → (∀ p ∈ s.objs, p.2.st ≠ .live) → ∃ t, exec .shapeApply s = .next t ∧ t.shape = sh ∧
        t.pendShape = none ∧ t.report = { s.report with state := 1 } ∧ t.mem = s.mem ∧ t.tasks = s.tasks) ∧
      (s.mayApply sh = false → exec .shapeApply s = .next s))

/-- A frame that a scrubber takes next (R408). -/
def TakesNext (s : State) (ds : List Nat) (pos at_ interval d : Nat) : Prop :=
  s.scrub.running = true ∧ at_ + interval ≤ s.now ∧ (nextFrame ds pos).map Prod.fst = some d

/-- Partial reload (R359, R372, R383, R386, R402 to R406, R439): a reload is asked for, or turned away; its region drains, and its
objects go; its frames are written from the die's own segment, its flip-flops hold their FF_INIT and its stores read zero, and it is
back in service after its release; or it stays in reset and is lost, the first code kept and PARTIAL set. What a reload that fails
leaves in the counters is the model's reading (log 39). -/
def Obligations.PartialReload : Prop :=
  ∀ (s : State), let r := s.reload.target
    let u := s.reload
    (∀ region : Fin 8,
      (s.present region.val = true → s.start.st = 7 → (u.st = 0 ∨ 4 ≤ u.st) → exec (.reloadRequest endpoint region) s = .next { s with
        reload := { u with region := region.val, target := region.val, st := 1 } }) ∧
      (((1 ≤ u.st ∧ u.st ≤ 3) ∨ s.present region.val = false ∨ s.start.st ≠ 7) → exec (.reloadRequest endpoint region) s =
        .next { s with reload := { u with region := region.val, reject := true } })) ∧
    (u.st = 1 → s.sec.opening = none →
      (∀ i, i < 4 → (s.cluster (4 * r + i)).task = none ∧ (s.cluster (4 * r + i)).phase = .idle ∧ (s.cluster (4 * r + i)).resv = none) →
      ∃ t, exec .reloadDrainEnd s = .next t ∧ t.reload.st = 2 ∧ Tbl.get false t.reload.held r = true ∧ KeepsMemory s t ∧
        ∀ i, (s.obj i).st = .live → (s.obj i).tier ≠ 2 → (s.obj i).home / 4 = r →
          (t.obj i).st = .removed ∨ (t.obj i).st = .reclaim) ∧
    (u.st = 1 → (∃ i, i < 4 ∧ (s.cluster (4 * r + i)).task ≠ none) → exec .reloadDrainEnd s = .next s) ∧
    (let fails (ok : Bool × Bool) (code : Nat) : Prop := ∃ t, exec (.reloadLoadDone ok.1 ok.2) s = .next t ∧ t.reload.st = 5 ∧
       t.reload.held = u.held ∧ t.faults.lost = upTo 255 (s.faults.lost + 1) ∧ t.cfg.partial_ = true ∧
       t.cfg.first = (if s.cfg.first = 0 then code else s.cfg.first)
     u.st = 2 →
      (s.attic.fault ≠ 0 → ∀ ok, fails ok s.attic.fault) ∧
      (s.attic.fault = 0 → s.ownSegment = none → ∀ ok, fails ok 7) ∧
      (∀ i, s.attic.fault = 0 → s.ownSegment = some i → let c := s.checkSegment (s.attic.seg i) false (s.attic.inside i)
        (∀ n, c = .failed n → ∀ ok, fails ok n) ∧
        (∀ st, c = .passed st → fails (false, true) 0x0F ∧ fails (true, false) 0x0F ∧
          ∃ t, exec (.reloadLoadDone true true) s = .next t ∧ t.reload = { u with st := 3, releaseAt := s.now } ∧
            (∀ d, d < 7440 → Tbl.get 0 t.fabric d =
              if s.inRegion r d = true then Tbl.get 0 (st.frames.map (fun f => (f.1, f.2.1))) d else Tbl.get 0 s.fabric d) ∧
            (∀ d, s.inRegion r d = true → t.flopsOf d = frameInit (Tbl.get 0 t.fabric d)) ∧
            ∀ c n off, c / 4 = r → n < 17 → off < 2 ^ 20 →
              memGet t.mem (shelfAt (c * 17 + n) off) = 0 ∧ memGet t.mem (larderAt c off) = 0))) ∧
    (s.pending = [] → u.st = 3 → u.releaseAt + 128 ≤ s.now + 1 → ∃ t, step s = .next t ∧ t.reload.st = 4 ∧
      Tbl.get false t.reload.held r = false)

/-- Scrubbing (R408 to R418, R439): the map reader takes its next frame at its interval; an essential difference is rewritten from the
shadow, and the runs that it touches are aborted; another is rewritten at once or, with DEFER, waits for the next pass; one flipped
bit of a shell frame is written back, more abort the run of the cluster whose sequencer shell it is, or lose the scrubber; SCRUB_CFG
is voted and refreshed, and without a majority, or where the copies agree on another value than the shadow's, the scrubber is lost;
a shell reload puts the shadow back and loses every context, or fails the die. How a shell reload puts frames back is the model's
reading (log 40). -/
def Obligations.Scrubbing : Prop :=
  ∀ (s : State), let x := s.scrub
    let lost (c : Instr) : Prop := ∃ t, exec c s = .next t ∧ t.scrub.running = false ∧ t.scrub.lost = true ∧ t.sec.fallback = true
    (∀ d flips, TakesNext s ((List.range 7168).filter s.mapReads) x.mapPos x.mapAt (s.scrubInterval 0) d →
      let now := Tbl.get 0 s.fabric d ^^^ flips
      let shadow := Tbl.get 0 s.attic.shadow d
      let bad : Prop := frameCrc now ≠ Tbl.get (frameCrc 0) s.attic.shadowCrc d
      (¬ bad → ∃ t, exec (.mapScrubFrame flips) s = .next t ∧
        t = { s with fabric := Tbl.set d now s.fabric, scrub := t.scrub } ∧ t.scrub.ess = x.ess ∧ t.scrub.noness = x.noness) ∧
      (bad → wordsDiff now shadow &&& s.mapOf d ≠ 0 → s.shadowOk d = true →
        ∃ t, exec (.mapScrubFrame flips) s = .next t ∧ t.mem = s.mem ∧ Tbl.get 0 t.fabric d = shadow ∧
          t.scrub.ess = upTo 255 (x.ess + 1) ∧ t.scrub.lastAddr = frameAddr d ∧
          (∀ c k tk, frameCluster d = some c → (s.cluster c).task = some k → (s.cluster c).phase = .running → s.task? k = some tk →
            tk.life = .running → t.task? k = some { tk with life := .aborting, cause := some (.fault 7 (frameAddr d) c 31) }) ∧
          ∀ c k tk, frameCluster d = none → c / 4 = d / 896 → (s.cluster c).task = some k → (s.cluster c).phase = .running →
            s.task? k = some tk → tk.life = .running → tk.after = none →
            ∃ c', t.task? k = some { tk with life := .aborting, cause := some (.fault 6 (frameAddr d) c' 31) }) ∧
      (bad → wordsDiff now shadow ≠ 0 → wordsDiff now shadow &&& s.mapOf d = 0 → s.shadowOk d = true → Tbl.get 0 x.again d = 0 →
        ∃ t, exec (.mapScrubFrame flips) s = .next t ∧ t = { s with fabric := t.fabric, scrub := t.scrub } ∧
          t.scrub.noness = upTo 65535 (x.noness + 1) ∧ t.scrub.ess = x.ess ∧
          Tbl.get 0 t.fabric d = (if s.scrubCfg.getLsbD 24 = true then now else shadow) ∧
          Tbl.get 0 t.scrub.again d = (if s.scrubCfg.getLsbD 24 = true then wordsDiff now shadow else 0))) ∧
    (∀ d flips, TakesNext s ((List.range 7424).filter (fun d => !mapped d && s.scrubs d)) x.privPos x.privAt (s.scrubInterval 8) d →
      let now := Tbl.get 0 s.fabric d ^^^ flips
      let shadow := Tbl.get 0 s.attic.shadow d
      let bad : Prop := frameCrc now ≠ Tbl.get (frameCrc 0) s.attic.shadowCrc d
      (¬ bad → ∃ t, exec (.privScrubFrame flips) s = .next t ∧
        t = { s with fabric := Tbl.set d now s.fabric, scrub := t.scrub } ∧ t.scrub.privCorr = x.privCorr) ∧
      (bad → s.shadowOk d = true → bitsDiff now shadow = 1 →
        ∃ t, exec (.privScrubFrame flips) s = .next t ∧ t = { s with fabric := t.fabric, scrub := t.scrub } ∧
          Tbl.get 0 t.fabric d = shadow ∧ (∀ e, e ≠ d → Tbl.get 0 t.fabric e = Tbl.get 0 s.fabric e) ∧
          t.scrub.privCorr = upTo 255 (x.privCorr + 1)) ∧
      (bad → s.shadowOk d = true → 2 ≤ bitsDiff now shadow → frameCluster d = none → lost (.privScrubFrame flips)) ∧
      (bad → 2 ≤ bitsDiff now shadow → s.shadowOk d = true → ∀ c k tk, frameCluster d = some c → (s.cluster c).task = some k →
        (s.cluster c).phase = .running → s.task? k = some tk → tk.life = .running →
        ∃ t, exec (.privScrubFrame flips) s = .next t ∧ t.mem = s.mem ∧ Tbl.get 0 t.fabric d = shadow ∧
          t.task? k = some { tk with life := .aborting, cause := some (.fault 5 (frameAddr d) c 31) })) ∧
    (∀ (copy : Fin 3) (v w : Word), x.running = true → x.copy0 = v → x.copy1 = v → x.copy2 = v → w ≠ v → x.outvoted = [] →
      exec (.scrubVote copy w) s = .next { s with scrub := { x with outvoted := [copy.val], vote := upTo 255 (x.vote + 1) } }) ∧
    (∀ w : Word, x.running = true → w ≠ x.copy1 → w ≠ x.copy2 → x.copy1 ≠ x.copy2 → lost (.scrubVote 0 w)) ∧
    (let v := (Tbl.get 0 s.attic.shadow 7439).extractLsb' 0 32
     x.running = true → x.refreshAt + 1250000 ≤ s.now → x.copy1 = x.copy0 → x.copy2 = x.copy0 →
      (x.copy0 = v → exec .scrubRefresh s = .next { s with scrub := { x with outvoted := [], refreshAt := s.now } }) ∧
      (x.copy0 ≠ v → lost .scrubRefresh)) ∧
    (s.start.st = 7 → x.running = false →
      ((∀ d, d < 7424 → mapped d = false → s.scrubs d = true → s.shadowOk d = true) →
        ∃ t, exec (.shellReloadDone true) s = .next t ∧ t.scrub.running = true ∧
          (∀ d, d < 7424 → mapped d = false → s.scrubs d = true → Tbl.get 0 t.fabric d = Tbl.get 0 s.attic.shadow d) ∧
          ∀ i, i < 4096 → (s.ctx i).st = .live → (t.ctx i).cause = 6 ∧ (t.ctx i).st ≠ .live) ∧
      ∃ t, exec (.shellReloadDone false) s = .next t ∧ t.start.st = 8 ∧ t.start.errorN = true ∧ t.mem = s.mem)

/-! ### Coolant, throttles, power and capacity (15, 17) -/

/-- Coolant loss stops the package and aborts its runs, its return starts it again; a thermal trip stops it too (R431 to R434, R487).
A pair of regions over the temperature limit for the second time throttles the hotter one, a region above 95 °C itself (R486); a
droop stretches a region and the neighbours faster than half of it (R483, R484); the governor moves the cap step (R488, R489); POWER
is the mean in 0.5 W (R461, R492). A cluster shell rises before and falls after what rests on it, a domain that has risen is empty,
an active cluster's is refused OFF (R477 to R482). Capacity is withdrawn or restored when the unit is idle, unless an object is at
home there (R436 to R438). That a withdrawal replaces one in progress (log 33) and that a tie of POWER rounds up (log 34) are the
model's choices. -/
def Obligations.PowerAndCoolant : Prop :=
  ∀ (s : State), let f := s.faults
    let p := s.power
    (f.stopped = false → s.reload.st = 0 → ∃ t, exec .coolantLoss s = .next t ∧ t.mem = s.mem ∧ t.faults.stopped = true ∧
      t.faults.coolOk = false ∧ t.faults.stops = upTo 255 (f.stops + 1) ∧ t.power.aclkStop = true ∧
      ∀ k tk, s.task? k = some tk → tk.life = .running → tk.clusters ≠ [] → tk.after = none →
        t.task? k = some { tk with life := .aborting, cause := some .coolant }) ∧
    (f.stopped = true → f.thermal = false → ∃ t, exec .coolantReturn s = .next t ∧ t.mem = s.mem ∧ t.faults.stopped = false ∧
      t.faults.coolOk = true ∧ t.power.aclkStop = false) ∧
    (f.stopped = false → exec .coolantReturn s = .next { s with faults := { f with coolOk := true } }) ∧
    (∀ region : Fin 8, s.present region.val = true → f.thermal = false → 110 < (s.monitor region.val).temp → ∃ t, exec (.thermalTrip region) s = .next t ∧
      t.faults.thermal = true ∧ t.power.aclkStop = true ∧ t.power.trips = upTo 255 (p.trips + 1)) ∧
    (∀ temps supplies, s.now < p.evalAt + 125 → exec (.neighbourEval temps supplies) s = .next s) ∧
    (∀ temps supplies, p.evalAt + 125 ≤ s.now → ∃ t, exec (.neighbourEval temps supplies) s = .next t ∧ t.power.evalAt = s.now ∧
      (∀ r (a : BitVec 8) (v : BitVec 10), r < 8 → s.present r = true → temps[r]? = some a → supplies[r]? = some v →
        (t.monitor r).temp = a.toNat ∧ (t.monitor r).supply = v.toNat ∧ (95 < a.toNat → (t.monitor r).thrOwn = true)) ∧
      ∀ q r (a b : BitVec 8), q < r → r < 8 → neighbours q r = true → s.present q = true → s.present r = true →
        temps[q]? = some a → temps[r]? = some b → 1 ≤ (Tbl.get (0, 0) p.pairs (8 * q + r)).1 →
        (20 < a.toNat - b.toNat → (t.monitor q).thrPair ≠ 0) ∧ (20 < b.toNat - a.toNat → (t.monitor r).thrPair ≠ 0)) ∧
    (∀ (region : Fin 8) (supply : BitVec 10), let r := region.val
      s.present r = true → supply.toNat + 30 + 2 * s.lowMargin r < 750 → (s.monitor r).droop = false →
      ∃ t, exec (.droopTrip region supply) s = .next t ∧ t = { s with power := t.power } ∧ (t.monitor r).droop = true ∧
        (t.monitor r).trips = upTo 255 ((s.monitor r).trips + 1) ∧ (t.monitor r).supply = supply.toNat ∧
        ∀ q, neighbours r q = true → s.present q = true → q < 8 → (s.monitor q).droop = false →
          s.divider q < (s.divider r + 3) / 2 → (t.monitor q).nbr = true) ∧
    (∀ region : Fin 8, s.present region.val = true → ∃ t, exec (.droopEnd region) s = .next t ∧ t = { s with power := t.power } ∧
      (t.monitor region.val).droop = false) ∧
    (∀ mw : BitVec 20, p.govAt + 125000 ≤ s.now →
      let watts := min (bitsN s.hard.powerCfg.toNat 0 8) (bitsN s.grade.toNat 16 8)
      let cap := 1000 * (if bitN s.hard.powerCfg.toNat 8 = true then watts else min watts 60)
      let next (step calm : Nat) : Out := .next { s with power := { p with capStep := step, calm := calm, govAt := s.now } }
      (cap < mw.toNat → exec (.governorWindow mw) s = next (if p.capStep < 4 then p.capStep + 1 else p.capStep) 0) ∧
      (mw.toNat < cap / 10 * 9 → 9 ≤ p.calm → 0 < p.capStep → exec (.governorWindow mw) s = next (p.capStep - 1) 0) ∧
      (mw.toNat < cap / 10 * 9 → p.calm < 9 → exec (.governorWindow mw) s = next p.capStep (p.calm + 1)) ∧
      (cap / 10 * 9 ≤ mw.toNat → mw.toNat ≤ cap → exec (.governorWindow mw) s = next p.capStep 0)) ∧
    (∀ mw : BitVec 20, p.windowAt + 1250000 ≤ s.now → exec (.powerWindow mw) s =
      .next { s with power := { p with power := upTo 511 ((mw.toNat + 250) / 500), windowAt := s.now } }) ∧
    (∀ c, c < 32 → s.present (c / 4) = true → (∀ d ∈ p.domains, d.2.want = none) → let d := 160 + c
      ((s.domain d).st = 0 → (s.domain (128 + c)).st = 0 → (s.domain (192 + c / 4)).st = 2 → s.ramping < 4 →
        ∃ t, exec (.domainOn endpoint (BitVec.ofNat 8 d)) s = .next t ∧ t = { s with power := t.power } ∧ (t.domain d).st = 1 ∧
          (t.domain d).at_ = s.now ∧ (t.domain (128 + c)).want = some true ∧ t.power.ctlFor = d ∧ t.power.ctlResult = 1) ∧
      (s.active c = false → (s.cluster c).spare.active = false → (s.domain d).st = 2 → (s.domain (128 + c)).st = 0 → (∀ q, q < s.tpc / 4 → (s.domain (4 * c + q)).st = 0) →
        ∃ t, exec (.domainOff endpoint (BitVec.ofNat 8 d)) s = .next t ∧ t = { s with power := t.power } ∧ (t.domain d).st = 3 ∧
          (t.domain d).at_ = s.now ∧ t.power.ctlFor = d ∧ t.power.ctlResult = 1) ∧
      (s.active c = true → exec (.domainOff endpoint (BitVec.ofNat 8 d)) s = .next { s with
        power := { p with ctlDomain := d, ctlFor := d, ctlOn := false, ctlResult := 3 } })) ∧
    (∀ d : BitVec 8, let n := d.toNat
      (s.domain n).want = none →
      (n < 128 → (s.domain n).st = 1 → (s.domain n).at_ + 192 ≤ s.now → ∃ t, exec (.domainSeqDone d) s = .next t ∧
        (t.domain n).st = 2 ∧ ∀ i off, i < 4 → off < 2 ^ 20 → memGet t.mem (shelfAt (n / 4 * 17 + 4 * (n % 4) + i) off) = 0) ∧
      (160 ≤ n → n < 192 → (s.domain n).st = 3 → (s.domain n).at_ + 64 ≤ s.now → ∃ t, exec (.domainSeqDone d) s = .next t ∧
        (t.domain n).st = 0 ∧ ∀ off, off < 2 ^ 24 → memGet t.mem (larderAt (n - 160) off) = 0)) ∧
    (∀ (whole : Bool) (region : Fin 8),
      let g : Faults := { f with capReg := region.val, capRegScope := whole, capScope := whole, capRegion := region.val }
      let inUnit (c : Nat) : Prop := if whole = true then c / 4 < 8 ∧ s.present (c / 4) = true else c / 4 = region.val
      ((∀ o ∈ s.objs, o.2.st = .live → o.2.tier ≠ 2 → ¬ inUnit o.2.home) →
        exec (.capacityWithdraw endpoint whole region) s = .next { s with faults := { g with capRestore := false, capSt := 1 } }) ∧
      ((∃ o ∈ s.objs, o.2.st = .live ∧ o.2.tier ≠ 2 ∧ inUnit o.2.home) →
        exec (.capacityWithdraw endpoint whole region) s = .next { s with faults := { g with capRestore := false, capSt := 4 } }) ∧
      exec (.capacityRestore endpoint whole region) s = .next { s with faults := { g with capRestore := true, capSt := 2 } }) ∧
    (f.capSt = 1 ∨ f.capSt = 2 → f.capScope = false →
      (∀ c, c < 32 → c / 4 = f.capRegion → (s.cluster c).task = none ∧ (s.cluster c).phase = .idle ∧ (s.cluster c).resv = none) →
      let bit : BitVec 8 := BitVec.ofNat 8 (2 ^ f.capRegion)
      (f.capRestore = false → s.needsMore = false → exec .capacityTakeEffect s = .next { s with
        faults := { f with capSt := 3, out := f.out ||| bit } }) ∧
      (f.capRestore = true → exec .capacityTakeEffect s = .next { s with
        faults := { f with capSt := 3, out := f.out &&& ~~~bit } }))

/-! ### Links (18) -/

/-- Messages from other dies (R27, R226 to R239, R251, R258, R263, R294, R295, R310, R318, R349, R500 to R502): a cellar request
enters the remote class of its port, or, outside the window, is answered with code 3; an object request to a larder is answered at
once; a response reaches its access, and one with code 2 or 3 is a fault of its run; a message waits for an entry of its mailbox
and its sender is told when it has one; reports, releases, aborts, fences and the messages of dispatch do what they say, and a start
message waits where the die may not start its task yet. That an absent object is answered with code 3 (log 35), the address of a
fault there (log 17), the cause of an abort that another die tells of (log 20), the bindings and answers that these messages carry,
the sequence in a FENCE message and what DISPATCH_IDLE shows (log 37), and what other dies hold (log 21) are the model's choices. -/
def Obligations.LinkMessages : Prop :=
  ∀ (s : State) (src : Fin 16),
    (∀ (tag : BitVec 10) (addr : BitVec 42) (data : BitVec 1024), s.cellarLost = false → let x := addr.toNat * 64
      let lacks : Prop := s.inWindow x = false ∧ s.served.find? (fun r => r.die = src.val && r.tag = tag.toNat) = none
      let p := (bitsN x 6 4 ^^^ bitsN x 10 4) ^^^ (bitsN x 14 4 ^^^ bitsN x 18 4)
      let asks (wr : Option Entry) (d : BitVec 1024) : Out := .next { s with
        served := s.served ++ [{ die := src.val, tag := tag.toNat, write := wr.isSome, need := 1, got := 0, err := 0, data := d }],
        cellar := Tbl.set p { s.cport p with rmQ := (s.cport p).rmQ ++
          [{ addr := x, wr := wr, src := .other src.val tag.toNat 0, cls := 2 }] } s.cellar }
      (s.inWindow x = true → (s.cport p).rmQ.length < 64 → exec (.cread src tag addr false) s = asks none 0 ∧
        exec (.cwrite src tag addr false data) s = asks (some (data.extractLsb' 0 512)) data) ∧
      (lacks → (∃ t, exec (.cread src tag addr false) s = .next t ∧ t.mem = s.mem ∧
          t.linkOut = s.linkOut ++ [(src.val, .rdata tag.toNat 3 0)]) ∧
        ∃ t, exec (.cwrite src tag addr false data) s = .next t ∧ t.mem = s.mem ∧
          t.linkOut = s.linkOut ++ [(src.val, .wack tag.toNat 3)])) ∧
    (∀ (tag : BitVec 10) (ver : Bool) (slot : BitVec 16) (off : BitVec 26) (data : BitVec 1024), let o := s.obj slot.toNat
      let at_ := larderAt o.home ((if o.committed && ver then o.base1 else o.base0) * 4096 + off.toNat * 64)
      (o.st = .live → o.tier = 1 → off.toNat * 64 < o.size →
        (∃ t, exec (.oread src tag ver slot off false) s = .next t ∧ t = { s with linkOut := t.linkOut, span := t.span } ∧
          t.linkOut = s.linkOut ++ [(src.val, .rdata tag.toNat 0 (BitVec.ofNat 1024 (memNat s.mem at_ 64)))]) ∧
        (memWf s.mem = true → ∃ t, exec (.owrite src tag ver slot off false data) s = .next t ∧
          t = { s with linkOut := t.linkOut, span := t.span, mem := t.mem } ∧
          t.linkOut = s.linkOut ++ [(src.val, .wack tag.toNat 0)] ∧
          ∀ b, memGet t.mem b =
            if at_ ≤ b ∧ b < at_ + 64 then BitVec.ofNat 8 (data.toNat / 256 ^ (b - at_)) else memGet s.mem b)) ∧
      (o.st = .free → ∃ t, exec (.oread src tag ver slot off false) s = .next t ∧ t.mem = s.mem ∧
        t.linkOut = s.linkOut ++ [(src.val, .rdata tag.toNat 3 0)])) ∧
    (∀ (tag : BitVec 10) (err : BitVec 2) (data : BitVec 1024) (r : LReq),
      s.linkReqs.find? (fun q => q.die = src.val && q.tag = tag.toNat) = some r → r.die = src.val → r.tag = tag.toNat →
      let x := Tbl.get Tile.fresh s.tiles r.tile
      let arrives (change : Access → Access) : Out := .next { s with
        linkReqs := s.linkReqs.filter (fun q => !(q.die = src.val && q.tag = tag.toNat)),
        tiles := Tbl.set r.tile { x with accs := x.accs.map (fun a => if a.id = r.acc then change a else a) } s.tiles }
      (err.toNat < 2 → (s.cluster (r.tile / 17)).phase ≠ .stopped →
        exec (.rdata src tag err data) s = arrives (fun a => { a with have_ := a.have_ + 1, data := data }) ∧
        exec (.wack src tag err) s = arrives (fun a => { a with have_ := a.have_ + 1 })) ∧
      (2 ≤ err.toNat → ∀ k tk, (s.cluster (r.tile / 17)).task = some k → s.task? k = some tk → tk.life = .running →
        ∀ i ∈ [Instr.rdata src tag err data, .wack src tag err], ∃ t, exec i s = .next t ∧ t.mem = s.mem ∧
          let addr := ((x.accs.find? (fun a => a.id = r.acc)).map Access.farAddr).getD 0
          let cause : EndCause := .fault 8 addr (r.tile / 17) 31
          t.task? k = some { tk with life := .aborting, cause := some cause })) ∧
    (∀ (k : Nat) (rel : BitVec 12) (msg : BitVec 128), (s.task? k).map (fun tk => tk.life) = some .running →
      let m : Msg := { src := bitsN msg.toNat 0 12, w1 := msg.extractLsb' 32 32, w2 := msg.extractLsb' 64 32,
                       w3 := msg.extractLsb' 96 32, avail := false }
      (∀ c, s.clusterOf k rel.toNat = some c → (s.cluster c).mbox.length < 16 → ∃ t, exec (.mail src k rel ⟨msg, false⟩) s = .next t ∧
        t = { s with clusters := Tbl.set c { s.cluster c with mbox := (s.cluster c).mbox ++ [m] } s.clusters
                     linkOut := t.linkOut, span := t.span } ∧
        t.linkOut = s.linkOut ++ [(src.val, .mail k m.src m true)]) ∧
      ((∀ c, s.clusterOf k rel.toNat = some c → 16 ≤ (s.cluster c).mbox.length) → exec (.mail src k rel ⟨msg, false⟩) s =
        .next { s with mails := s.mails ++ [{ die := src.val, task := k, rel := rel.toNat, m := m }] }) ∧
      (∀ l, s.task? l = none → exec (.mail src l rel ⟨msg, false⟩) s =
        .next { s with mails := s.mails ++ [{ die := src.val, task := l, rel := rel.toNat, m := m }] }) ∧
      (∀ c, s.clusterOf k rel.toNat = some c → (s.cluster c).posted = 1 → exec (.mail src k rel ⟨msg, true⟩) s =
        .next { s with clusters := Tbl.set c { s.cluster c with posted := 2 } s.clusters })) ∧
    (∀ (k epoch : Nat) (ended : Bool) (binds : List Bound) (tk : Task), s.task? k = some tk → tk.life = .running →
      let knows (y : Task) : Prop := ∀ b ∈ binds, ∃ n ∈ y.named, n.idx = b.idx
      ((∀ p ∈ s.tasks, p.2.after ≠ some k) → ∃ t y, exec (.arrive src k epoch ⟨ended, binds⟩) s = .next t ∧
        t = { s with tasks := Tbl.set k y s.tasks, linkOut := t.linkOut, span := t.span } ∧
        y = { tk with reports := y.reports, named := y.named } ∧ knows y ∧ y.reported src.val = (epoch, ended) ∧
        ∀ d, d ≠ src.val → y.reported d = tk.reported d) ∧
      (∃ t y, exec (.release src k ⟨tk.stops + 1, binds⟩) s = .next t ∧ t.mem = s.mem ∧ t.tiles = s.tiles ∧
        t.task? k = some y ∧ y.stops = tk.stops + 1 ∧ knows y ∧
        (∀ n ∈ y.named, n.bound = none ∨ n.bound = some (List.range 32)) ∧
        ∀ c, c < 32 → (s.cluster c).task = some k → (s.cluster c).phase = .running → (s.cluster c).step = .arrived →
          (s.cluster c).punct = 3 → (s.cluster c).stopEpoch = tk.stops → t.cluster c = letGo s.now (s.cluster c)) ∧
      (∃ t y, exec (.abort src ⟨k, false⟩) s = .next t ∧ t.mem = s.mem ∧ t.task? k = some y ∧ y.life = .aborting ∧
        y.cause.isSome = true ∧ (tk.die ≠ s.die → y.cause = some .followOn) ∧
        ∀ c, c < 32 → (s.cluster c).task = some k → (t.cluster c).phase = .stopped)) ∧
    (∀ k : Nat,
      (∀ tk, s.task? k = some tk → exec (.abort src ⟨k, true⟩) s = .next { s with
        tasks := Tbl.set k { tk with drains := src.val :: tk.drains.filter (fun d => d ≠ src.val) } s.tasks }) ∧
      (s.task? k = none → ∃ t, exec (.abort src ⟨k, false⟩) s = .next t ∧ t.mem = s.mem ∧ t.tasks = s.tasks ∧
        t.clusters = s.clusters ∧ t.linkOut = s.linkOut ++ [(k / 2 ^ 32, .abort k true)])) ∧
    (∀ (handle : Word) (val : BitVec 64) (i : Nat), s.live handle none = some i → (s.obj i).fence = true → memWf s.mem = true →
      let w := s.fenceWord i
      ∃ t, exec (.fence src handle val) s = .next t ∧ t.objs = s.objs ∧
        t.fenceWord i = (if 2 ^ 63 ≤ val.toNat then w % 2 ^ 63 + 2 ^ 63
          else if w % 2 ^ 63 < val.toNat then w - w % 2 ^ 63 + val.toNat else w) ∧
        ∀ a, (a < s.fenceAt (s.obj i) ∨ s.fenceAt (s.obj i) + 16 ≤ a) → memGet t.mem a = memGet s.mem a) ∧
    (∀ (part : Fin 8) (count : BitVec 12), s.urgentFor = [] → (∀ y ∈ s.queues, y.2.urgent = false) → s.start.st = 7 →
      s.scrub.running = true → s.faults.stopped = false → s.faults.thermal = false →
      let cs := ((List.range 32).filter (fun c => s.idle c && s.shape.part c = part.val)).take count.toNat
      ∃ t, exec (.dispatchReserve src part count false) s = .next t ∧
        t = { s with clusters := t.clusters, linkOut := t.linkOut, span := t.span } ∧
        t.linkOut = s.linkOut ++ [(src.val, .answer cs.length)] ∧
        ∀ c, t.cluster c = if c ∈ cs then { s.cluster c with resv := some (src.val * 1024) } else s.cluster c) ∧
    (∀ m : StartMsg, let k := taskKey src.val m.seq
      let cs := (List.range 32).filter (fun c => (s.cluster c).resv = some (src.val * 1024))
      let waits : Prop := exec (.dispatchStart src m) s = .next { s with starts := s.starts ++ [(src.val, m)] }
      let free : Prop := ∀ e ∈ m.objs, e.2 = true → handleDie e.1 = s.die → s.heldBy k (s.obj (handleSlot e.1)) = false
      (s.task? k = none → m.after = none → cs ≠ [] →
        (s.mayDispatch = true → free → ∃ t g, exec (.dispatchStart src m) s = .next t ∧ t.mem = s.mem ∧ t.task? k = some g ∧
          g.life = .running ∧ g.clusters = cs ∧ g.die = src.val ∧ g.seq = m.seq ∧ g.ctx = m.context ∧ g.layout = m.layout ∧
          ∀ c ∈ cs, (t.cluster c).task = some k ∧ (t.cluster c).resv = none) ∧
        (s.mayDispatch = false ∨ ¬ free → waits)) ∧
      (∀ tk, s.task? k = some tk → tk.life = .aborting → waits) ∧
      (∀ tk, s.task? k = some tk → tk.life = .held → ∃ t g, exec (.dispatchStart src m) s = .next t ∧ t.task? k = some g ∧
        g.life = .running ∧ g.rerun = true ∧ g.cause = none ∧ g.clusters = tk.clusters)) ∧
    (src.val ≠ s.die →
      (∃ t, exec (.dispatchCancel ⟨src, none⟩) s = .next t ∧
        t = { s with clusters := t.clusters, urgentFor := t.urgentFor } ∧
        ∀ c, c < 32 → (t.cluster c) = { s.cluster c with
          resv := if (s.cluster c).resv = some (src.val * 1024) then none else (s.cluster c).resv }) ∧
      ((∀ c, c < 32 → (s.cluster c).resv ≠ some (src.val * 1024)) → exec (.dispatchCancel ⟨src, none⟩) s =
        .next { s with urgentFor := s.urgentFor.filter (fun u => u.1 ≠ src.val) }) ∧
      ∀ k tk, s.task? k = some tk → tk.die = src.val → tk.life = .held →
        ∃ t, exec (.dispatchCancel ⟨src, some k⟩) s = .next t ∧ KeepsMemory s t ∧ t.task? k = none) ∧
    (∀ (part : Fin 8), 
      let key := 8 * src.val + part.val
      let known : Tbl Nat := if Tbl.get 0 s.peers key = 0 then Tbl.set key 1 s.peers else s.peers
      let again := s.queues.filter (fun q => q.2.st = .blocked && q.2.block = 3 && q.2.asked = [] && q.2.part = part.val)
      (again = [] → exec (.dispatchIdle src part) s = .next { s with peers := known }) ∧
      (∀ q y k tk, again = [(q, y)] → s.queue q = y → s.head q = .short k → s.task? k = some tk → tk.part = part.val →
        y.got = [] → s.mayDispatch = true → src.val ≠ s.die → src.val ∉ s.lostDies →
        (∀ c, c < 32 → (s.cluster c).resv ≠ some (s.die * 1024 + q)) →
        ∃ t d, exec (.dispatchIdle src part) s = .next t ∧ t.peers = known ∧ d ≠ s.die ∧ (t.queue q).asked = [d] ∧
          t.linkOut = s.linkOut ++
            [(d, .reserve part.val (tk.ncluster - (s.clustersFor q part.val).length) y.urgent)])) ∧
    (∀ (count : BitVec 12) (q : Nat) (y : HostQ) (k : Nat) (rest : List Nat) (tk : Task),
      s.queues.find? (fun o => o.2.asked.getLast? = some src.val && o.2.got.length < o.2.asked.length) = some (q, y) →
      s.queue q = y → y.waiting = k :: rest → k ∉ rest → s.task? k = some tk → s.stillReady k tk = true →
      let own := (List.range 32).filter (fun c => (s.cluster c).resv = some (s.die * 1024 + q))
      let others := (y.got ++ [(src.val, count.toNat)]).filter (fun g => g.2 ≠ 0)
      tk.ncluster ≤ own.length + (others.map Prod.snd).sum →
      ∃ t g, exec (.dispatchAnswer src count) s = .next t ∧ t.mem = s.mem ∧ t.task? k = some g ∧ g.life = .running ∧
        g.clusters = own ∧ (t.queue q).waiting = rest ∧
        g.layout = others.foldl (fun l d => insertDie d l) (if own = [] then [] else [(s.die, own.length)]) ∧
        (∀ c ∈ own, (t.cluster c).task = some k) ∧
        ∀ d ∈ others, ∃ m, (d.1, LMsg.start m) ∈ t.linkOut ∧ m.seq = tk.seq)

/-- The span and the seam (R496 to R499, R503 to R512): frames are taken in SEQ order and acknowledged; a NACK or a late
acknowledgment replays; REPLAY_MAX replays of one frame, or a tag that fails, retrain the link; training checks the peer and
its keys, and a state that exceeds its limit returns to WAKE; the seam becomes active from stage 3 of release on; a link that does not come back aborts the runs that wait for it, and is lost after LOST_MS. The CAUSE of a failed
training (log 38) and that a NACK acknowledges the frames before its SEQ (log 37) are the model's readings. -/
def Obligations.LinkPorts : Prop :=
  (∀ (s : State) (port : Fin 2), let p := port.val
    let x := s.spanOf p
    let next (y : Span) : Out := .next { s with span := Tbl.set p y s.span }
    let most := max 1 (bitsN s.hard.link.toNat 16 4)
    let trained (y : Span) : Span :=
      { y with st := 6, retrain := upTo 255 (y.retrain + 1), enterAt := s.now, stateAt := s.now, rerouted := false, tries := 0 }
    let enters (y : Span) : Out := next { y with stateAt := s.now }
    s.hasSpan p = true →
    (x.st = 5 → ∀ seq ack : BitVec 12,
      (∀ heads, exec (.spanFrameReceive port .badCrc heads seq ack) s =
        next { x with crcErr := upTo 255 (x.crcErr + 1), nacked := true }) ∧
      (seq.toNat = x.expSeq → ack.toNat ∉ x.replays → ∀ heads, (∀ h ∈ heads, headOk h = true) →
        exec (.spanFrameReceive port .good heads seq ack) s = next { x with
          expSeq := (x.expSeq + 1) % 4096, nacked := false, format := upTo 255 x.format }) ∧
      (seq.toNat = x.expSeq → ack.toNat ∉ x.replays → ∀ h : BitVec 64,
        (bitsN h.toNat 0 4 = 0 ∨ bitsN h.toNat 0 4 = 7 ∨ 14 ≤ bitsN h.toNat 0 4 ∨ bitsN h.toNat 9 2 = 3) →
        exec (.spanFrameReceive port .good [h] seq ack) s = next { x with
          expSeq := (x.expSeq + 1) % 4096, nacked := false, format := upTo 255 (x.format + 1) }) ∧
      (seq.toNat = x.expSeq → ∀ older newer, x.replays = older ++ ack.toNat :: newer → ack.toNat ∉ older →
        exec (.spanFrameReceive port .good [] seq ack) s = next { x with
          expSeq := (x.expSeq + 1) % 4096, nacked := false, replays := newer, ackSeq := ack.toNat, tries := 0,
          format := upTo 255 x.format }) ∧
      (seq.toNat ≠ x.expSeq → ∀ heads, exec (.spanFrameReceive port .good heads seq ack) s = next { x with nacked := true }) ∧
      ((seq.toNat + 4095) % 4096 ∉ x.replays → x.replays ≠ [] →
        let again : Span := { x with replay := upTo 65535 (x.replay + 1), tries := x.tries + 1 }
        let after := if most ≤ x.tries + 1 then trained again else again
        ∃ t, exec (.spanNack port seq) s = .next t ∧ exec (.spanReplayTimeout port) s = .next { s with span := Tbl.set p after s.span } ∧
          t = { s with span := t.span } ∧ t.spanOf p = after)) ∧
    (∀ (peer : Fin 16) (npkg : BitVec 4) (family : Byte) (sig : BitVec 12) (keysOk : Bool) (lat : BitVec 16), let n := s.cfg.npkg
      let go : Out := exec (.spanTrainStep port peer npkg family sig keysOk lat) s
      let wired := 2 * (if p = 1 then (s.die / 2 + 1) % n else (s.die / 2 + n - 1) % n) + s.die % 2
      (x.st = 1 → go = enters { x with st := 2 }) ∧ (x.st = 2 → go = enters { x with st := 3 }) ∧
      (x.st = 3 → peer.val = wired → family.toNat = bitsN s.build.toNat 24 8 → sig.toNat = bitsN s.build.toNat 0 12 →
        npkg.toNat = n → go = enters { x with st := 4, peer := peer.val, lat := lat.toNat }) ∧
      (x.st = 3 → peer.val ≠ wired → go = enters { x with st := 1, cause := 3 }) ∧
      (x.st = 4 → keysOk = false → go = enters { x with st := 1, cause := 5 }) ∧
      (x.st = 4 → keysOk = true → ∃ t, go = .next t ∧ (t.spanOf p).st = 5 ∧ t.mem = s.mem) ∧
      (x.st = 6 → go = enters { x with st := 1 })) ∧
    (let limit := if x.st = 1 then 12500 else if x.st = 2 then 6250 else if x.st = 3 then 1250 else 62500
     1 ≤ x.st → x.st ≤ 4 →
     (x.stateAt + limit < s.now → exec (.spanStateTimeout port) s = enters { x with st := 1, cause := if x.st ≤ 2 then 1 else 6 }) ∧
     (s.now ≤ x.stateAt + limit → exec (.spanStateTimeout port) s = .next s)) ∧
    (x.st = 6 → x.retrain ≠ 0 → x.rerouted = false → x.enterAt + 12500 * max 1 (bitsN s.hard.link.toNat 0 8) ≤ s.now →
      ∃ t, exec (.retrainLimitExpire ⟨p, by omega⟩) s = .next t ∧ t.mem = s.mem ∧ (t.spanOf p).rerouted = true ∧
        t.linkReqs = s.linkReqs.filter (fun r => !s.goesBy p r.die) ∧
        ∀ r k tk, r ∈ s.linkReqs → s.goesBy p r.die = true → (s.cluster (r.tile / 17)).task = some k → s.task? k = some tk →
          tk.life = .running → (t.task? k).map (fun y => y.life) = some .aborting) ∧
    (x.st = 6 → s.start.st = 7 → x.enterAt + 125000 * max 1 (bitsN s.hard.link.toNat 8 8) ≤ s.now →
      ∃ t, exec (.linkLost ⟨p, by omega⟩) s = .next t ∧ KeepsMemory s t ∧ (t.spanOf p).st = 7)) ∧
  (∀ s : State, s.hasSeam = true →
    (s.seam.st = 1 → exec .seamRetrain s = .next { s with seam := { s.seam with
      st := 2, retrain := upTo 255 (s.seam.retrain + 1), enterAt := s.now, rerouted := false } }) ∧
    (s.start.st = 7 ∨ (s.start.st = 6 ∧ 3 ≤ s.start.stage) → s.seam.st = 0 ∨ s.seam.st = 2 → ∃ t, exec .seamActive s = .next t ∧
      t = { s with seam := { s.seam with st := 1, rerouted := false }, peers := t.peers, free := t.free }))

/-- A frame of an ACTIVE span port whose CRC is good and whose tag fails is discarded: nothing leaves the replay buffer and the SEQ
expected stays. It is counted in AUTH and the link enters RETRAIN; the fourth one makes the link lost (R510). -/
def Obligations.TagFails : Prop :=
  ∀ (s : State) (port : Fin 2) (heads : List (BitVec 64)) (seq ack : BitVec 12), let p := port.val
    let x := s.spanOf p
    s.hasSpan p = true → x.st = 5 → x.auth < 15 →
    ∃ t, exec (.spanFrameReceive port .badTag heads seq ack) s = .next t ∧ (t.spanOf p).auth = x.auth + 1 ∧
      (t.spanOf p).expSeq = x.expSeq ∧ (∃ l, (t.spanOf p).replays = x.replays ++ l) ∧
      (t.spanOf p).st = (if x.auth + 1 < 4 then 6 else 7) ∧
      (x.auth + 1 < 4 → t = { s with span := Tbl.set p { x with
        st := 6, auth := x.auth + 1, retrain := upTo 255 (x.retrain + 1), enterAt := s.now, stateAt := s.now,
        rerouted := false, tries := 0 } s.span })

/-! ### Numbers (03) -/

/-- The register of a generator after so many steps (R87): one step shifts right by one bit and, if the bit shifted out is 1,
XORs with 0x8020_0003. -/
def shifted (s : BitVec 32) : Nat → BitVec 32
  | 0 => s
  | m + 1 => if (shifted s m).getLsbD 0 = true then (shifted s m >>> 1) ^^^ 0x80200003 else shifted s m >>> 1

/-- A draw of n bits takes n steps, and bit m of the drawn value is the bit shifted out at step m (R87); a verb draws 8, 12 or 16
bits. -/
def Obligations.Draws : Prop :=
  (∀ (s : BitVec 32) (n : Nat), (draw s.toNat n).1 = (shifted s n).toNat ∧ (draw s.toNat n).2 < 2 ^ n ∧
    ∀ m, m < n → Nat.testBit (draw s.toNat n).2 m = (shifted s m).getLsbD 0) ∧
  (srnBits 0 = 8 ∧ srnBits 1 = 12 ∧ srnBits 2 = 16)

/-- An exact product: NaN, an infinity, or a fraction with a denominator. -/
def IsValue (x : NumVal) : Prop := ∀ m d, x = .fin m d → 0 < d

/-- The group value depends only on the multiset of the group's products, not on the order in which they are formed or added, on
the exact path and on the window path (R75). -/
def Obligations.GroupOrder : Prop :=
  ∀ (exact : Bool) (ps qs : List NumVal), List.Perm ps qs → (∀ x ∈ ps, IsValue x) →
    (groupValue exact ps = .nan ∧ groupValue exact qs = .nan) ∨ NumVal.same (groupValue exact ps) (groupValue exact qs) = true

/-! ### The machine as a whole -/

/-- A step runs the command at the front of the queue on the state with the queue's rest. With none waiting, one MCLK cycle passes
(log 2): the command queue stays empty, and where no cluster runs, no start message waits and no region is being released, no byte,
task or register of a tile changes. Both are the model's form (log 1, log 2). -/
def Obligations.StepRunsFront : Prop :=
  (∀ (s : State) (c : Instr) (rest : List Instr), step { s with pending := c :: rest } = exec c { s with pending := rest }) ∧
  (∀ s : State, s.pending = [] → ∃ t, step s = .next t ∧ t.now = s.now + 1 ∧ t.pending = [] ∧ t.build = s.build ∧
    ((∀ c, (s.cluster c).phase ≠ .running) → s.starts = [] → s.reload.st ≠ 3 → t.mem = s.mem ∧ t.tasks = s.tasks ∧ t.tiles = s.tiles))

/-- No command changes the queue of waiting commands, the build, the grade, or the count of cycles. The queue and the count of
cycles are the model's own (log 1, log 2). -/
def Obligations.QueueKept : Prop :=
  ∀ (i : Instr) (s t : State), exec i s = .next t →
    t.pending = s.pending ∧ t.build = s.build ∧ t.grade = s.grade ∧ t.now = s.now

/-- Every command completes in every state: none stops the block. -/
def Obligations.EveryCommandCompletes : Prop := ∀ (i : Instr) (s : State), ∃ t, exec i s = .next t

/-- Every step keeps the canonical form of the memory: addresses rise and no listed byte is 0. The form is the model's own (log
3). -/
def Obligations.MemoryCanonicalKept : Prop :=
  ∀ (s t : State), memWf s.mem = true → step s = .next t → memWf t.mem = true

/-- What the tables give registers at reset: POWER (R393), no context and no task, queues IDLE with a full bucket each (R278, R331),
the masters' heartbeat limit 100 ms (R331), the front windows (R334, R357), the port limits (R357), a spare free (R145), and the
reset values of the hard-block registers (Table 19-5). The memory is in canonical form, which is the model's own (log 3). -/
def Obligations.ResetValues : Prop :=
  let s := State.reset
  s.start.st = 0 ∧ s.tasks = [] ∧ s.taskSeq = 0 ∧ (∀ i, (s.ctx i).st = .free) ∧ (∀ i, (s.obj i).st = .free) ∧
    (∀ q, (s.queue q).st = .idle ∧ (s.queue q).qdepth = 0x40 ∧ (s.queue q).waitLimit = 0x3E8 ∧ (s.queue q).rateRd = 0 ∧
      (s.queue q).depthRd = 0x10 ∧ (s.queue q).outstanding = 0x40 ∧ (s.queue q).rateWr = 0 ∧ (s.queue q).depthWr = 0x10) ∧
    (∀ m, Tbl.get 0x64 s.hbLimit m = 0x64) ∧
    (∀ f, f < 4 → (s.port f).midBase = 0x400 * f ∧ (s.port f).midMask = 0xC00 ∧ (s.port f).en = true ∧ (s.port f).hung = false) ∧
    s.wdLimit = 0x0A ∧ s.cellarLimit = 0x10 ∧ s.respLimit = 0x00A ∧
    (∀ c, (s.cluster c).spare.active = false ∧ (s.cluster c).spare.target = 0x1F) ∧ (∀ p, (s.spanOf p).st = 0) ∧
    s.hard.link = 0x00080A0A ∧ s.hard.powerCfg = 0x00000178 ∧ s.hard.fallback = 0x0000AA08 ∧ s.scrub.copy0 = 0x01010208 ∧ memWf s.mem = true
end

