-- ==== Sys2Proof/Laws/State.lean ====
section
/-! SUPPORT. What each named update of the state leaves alone, and what each accessor reads after it. -/
namespace Sys2Proof.Machine
set_option Elab.async false

/-! ### Tables -/

theorem Tbl.find_set_same {α : Type} (k : Nat) (v : α) (t : Tbl α) : Tbl.find k (Tbl.set k v t) = some v := by
  induction t with
  | nil => simp [Tbl.set, Tbl.find]
  | cons p r ih =>
    obtain ⟨a, x⟩ := p
    unfold Tbl.set
    split
    · simp [Tbl.find]
    · split
      · simp [Tbl.find]
      · rename_i h1 h2
        have h3 : ¬ a = k := fun h => h2 h.symm
        simp [Tbl.find, h3, ih]

theorem Tbl.find_set_ne {α : Type} {j k : Nat} (v : α) (t : Tbl α) (h : j ≠ k) :
    Tbl.find j (Tbl.set k v t) = Tbl.find j t := by
  have hk : ¬ k = j := fun e => h e.symm
  induction t with
  | nil => simp [Tbl.set, Tbl.find, hk]
  | cons p r ih =>
    obtain ⟨a, x⟩ := p
    unfold Tbl.set
    split
    · simp [Tbl.find, hk]
    · split
      · rename_i h1 h2
        subst h2
        simp [Tbl.find, hk]
      · by_cases ha : a = j
        · simp [Tbl.find, ha]
        · simp [Tbl.find, ha, ih]

@[simp] theorem Tbl.get_set_same {α : Type} (d : α) (k : Nat) (v : α) (t : Tbl α) : Tbl.get d (Tbl.set k v t) k = v := by
  simp [Tbl.get, Tbl.find_set_same]

theorem Tbl.get_set_ne {α : Type} (d : α) {j k : Nat} (v : α) (t : Tbl α) (h : j ≠ k) :
    Tbl.get d (Tbl.set k v t) j = Tbl.get d t j := by
  simp [Tbl.get, Tbl.find_set_ne v t h]

@[simp] theorem Tbl.get_nil {α : Type} (d : α) (k : Nat) : Tbl.get d [] k = d := rfl

@[simp] theorem Tbl.find_nil {α : Type} (k : Nat) : Tbl.find k ([] : Tbl α) = none := rfl

/-! ### Changes as writes -/

@[simp] theorem State.onTile_eq (s : State) (c t : Nat) (f : Tile → Tile) : s.onTile c t f = s.setTile c t (f (s.tile c t)) := rfl
@[simp] theorem State.onCluster_eq (s : State) (c : Nat) (f : Cluster → Cluster) : s.onCluster c f = s.setCluster c (f (s.cluster c)) := rfl
@[simp] theorem State.onCtx_eq (s : State) (k : Nat) (f : Ctx → Ctx) : s.onCtx k f = s.setCtx k (f (s.ctx k)) := rfl
@[simp] theorem State.onQueue_eq (s : State) (q : Nat) (f : HostQ → HostQ) : s.onQueue q f = s.setQueue q (f (s.queue q)) := rfl
@[simp] theorem State.onObj_eq (s : State) (i : Nat) (f : Obj → Obj) : s.onObj i f = s.setObj i (f (s.obj i)) := rfl

/-! ### setTile changes only `tiles` -/

@[simp] theorem State.setTile_mem (s : State) (c t : Nat) (x : Tile) : (s.setTile c t x).mem = s.mem := rfl
@[simp] theorem State.setTile_now (s : State) (c t : Nat) (x : Tile) : (s.setTile c t x).now = s.now := rfl
@[simp] theorem State.setTile_free (s : State) (c t : Nat) (x : Tile) : (s.setTile c t x).free = s.free := rfl
@[simp] theorem State.setTile_build (s : State) (c t : Nat) (x : Tile) : (s.setTile c t x).build = s.build := rfl
@[simp] theorem State.setTile_grade (s : State) (c t : Nat) (x : Tile) : (s.setTile c t x).grade = s.grade := rfl
@[simp] theorem State.setTile_hw (s : State) (c t : Nat) (x : Tile) : (s.setTile c t x).hw = s.hw := rfl
@[simp] theorem State.setTile_clusters (s : State) (c t : Nat) (x : Tile) : (s.setTile c t x).clusters = s.clusters := rfl
@[simp] theorem State.setTile_shape (s : State) (c t : Nat) (x : Tile) : (s.setTile c t x).shape = s.shape := rfl
@[simp] theorem State.setTile_pendShape (s : State) (c t : Nat) (x : Tile) : (s.setTile c t x).pendShape = s.pendShape := rfl
@[simp] theorem State.setTile_report (s : State) (c t : Nat) (x : Tile) : (s.setTile c t x).report = s.report := rfl
@[simp] theorem State.setTile_ctxs (s : State) (c t : Nat) (x : Tile) : (s.setTile c t x).ctxs = s.ctxs := rfl
@[simp] theorem State.setTile_queues (s : State) (c t : Nat) (x : Tile) : (s.setTile c t x).queues = s.queues := rfl
@[simp] theorem State.setTile_objs (s : State) (c t : Nat) (x : Tile) : (s.setTile c t x).objs = s.objs := rfl
@[simp] theorem State.setTile_tasks (s : State) (c t : Nat) (x : Tile) : (s.setTile c t x).tasks = s.tasks := rfl
@[simp] theorem State.setTile_taskSeq (s : State) (c t : Nat) (x : Tile) : (s.setTile c t x).taskSeq = s.taskSeq := rfl
@[simp] theorem State.setTile_hbLimit (s : State) (c t : Nat) (x : Tile) : (s.setTile c t x).hbLimit = s.hbLimit := rfl
@[simp] theorem State.setTile_hbAt (s : State) (c t : Nat) (x : Tile) : (s.setTile c t x).hbAt = s.hbAt := rfl
@[simp] theorem State.setTile_expired (s : State) (c t : Nat) (x : Tile) : (s.setTile c t x).expired = s.expired := rfl
@[simp] theorem State.setTile_latch (s : State) (c t : Nat) (x : Tile) : (s.setTile c t x).latch = s.latch := rfl
@[simp] theorem State.setTile_scanCycles (s : State) (c t : Nat) (x : Tile) : (s.setTile c t x).scanCycles = s.scanCycles := rfl
@[simp] theorem State.setTile_scanQueue (s : State) (c t : Nat) (x : Tile) : (s.setTile c t x).scanQueue = s.scanQueue := rfl
@[simp] theorem State.setTile_scanSeq (s : State) (c t : Nat) (x : Tile) : (s.setTile c t x).scanSeq = s.scanSeq := rfl
@[simp] theorem State.setTile_scanAt (s : State) (c t : Nat) (x : Tile) : (s.setTile c t x).scanAt = s.scanAt := rfl
@[simp] theorem State.setTile_commits (s : State) (c t : Nat) (x : Tile) : (s.setTile c t x).commits = s.commits := rfl
@[simp] theorem State.setTile_fullSeen (s : State) (c t : Nat) (x : Tile) : (s.setTile c t x).fullSeen = s.fullSeen := rfl
@[simp] theorem State.setTile_redo (s : State) (c t : Nat) (x : Tile) : (s.setTile c t x).redo = s.redo := rfl
@[simp] theorem State.setTile_badCrc (s : State) (c t : Nat) (x : Tile) : (s.setTile c t x).badCrc = s.badCrc := rfl
@[simp] theorem State.setTile_rrQueue (s : State) (c t : Nat) (x : Tile) : (s.setTile c t x).rrQueue = s.rrQueue := rfl
@[simp] theorem State.setTile_front (s : State) (c t : Nat) (x : Tile) : (s.setTile c t x).front = s.front := rfl
@[simp] theorem State.setTile_wdLimit (s : State) (c t : Nat) (x : Tile) : (s.setTile c t x).wdLimit = s.wdLimit := rfl
@[simp] theorem State.setTile_cellarLimit (s : State) (c t : Nat) (x : Tile) : (s.setTile c t x).cellarLimit = s.cellarLimit := rfl
@[simp] theorem State.setTile_respLimit (s : State) (c t : Nat) (x : Tile) : (s.setTile c t x).respLimit = s.respLimit := rfl
@[simp] theorem State.setTile_cellar (s : State) (c t : Nat) (x : Tile) : (s.setTile c t x).cellar = s.cellar := rfl
@[simp] theorem State.setTile_cellarLost (s : State) (c t : Nat) (x : Tile) : (s.setTile c t x).cellarLost = s.cellarLost := rfl
@[simp] theorem State.setTile_lastGrant (s : State) (c t : Nat) (x : Tile) : (s.setTile c t x).lastGrant = s.lastGrant := rfl
@[simp] theorem State.setTile_attic (s : State) (c t : Nat) (x : Tile) : (s.setTile c t x).attic = s.attic := rfl
@[simp] theorem State.setTile_fabric (s : State) (c t : Nat) (x : Tile) : (s.setTile c t x).fabric = s.fabric := rfl
@[simp] theorem State.setTile_flops (s : State) (c t : Nat) (x : Tile) : (s.setTile c t x).flops = s.flops := rfl
@[simp] theorem State.setTile_start (s : State) (c t : Nat) (x : Tile) : (s.setTile c t x).start = s.start := rfl
@[simp] theorem State.setTile_cfg (s : State) (c t : Nat) (x : Tile) : (s.setTile c t x).cfg = s.cfg := rfl
@[simp] theorem State.setTile_reload (s : State) (c t : Nat) (x : Tile) : (s.setTile c t x).reload = s.reload := rfl
@[simp] theorem State.setTile_scrub (s : State) (c t : Nat) (x : Tile) : (s.setTile c t x).scrub = s.scrub := rfl
@[simp] theorem State.setTile_hard (s : State) (c t : Nat) (x : Tile) : (s.setTile c t x).hard = s.hard := rfl
@[simp] theorem State.setTile_faults (s : State) (c t : Nat) (x : Tile) : (s.setTile c t x).faults = s.faults := rfl
@[simp] theorem State.setTile_sec (s : State) (c t : Nat) (x : Tile) : (s.setTile c t x).sec = s.sec := rfl
@[simp] theorem State.setTile_power (s : State) (c t : Nat) (x : Tile) : (s.setTile c t x).power = s.power := rfl
@[simp] theorem State.setTile_span (s : State) (c t : Nat) (x : Tile) : (s.setTile c t x).span = s.span := rfl
@[simp] theorem State.setTile_seam (s : State) (c t : Nat) (x : Tile) : (s.setTile c t x).seam = s.seam := rfl
@[simp] theorem State.setTile_linkOut (s : State) (c t : Nat) (x : Tile) : (s.setTile c t x).linkOut = s.linkOut := rfl
@[simp] theorem State.setTile_linkReqs (s : State) (c t : Nat) (x : Tile) : (s.setTile c t x).linkReqs = s.linkReqs := rfl
@[simp] theorem State.setTile_served (s : State) (c t : Nat) (x : Tile) : (s.setTile c t x).served = s.served := rfl
@[simp] theorem State.setTile_mails (s : State) (c t : Nat) (x : Tile) : (s.setTile c t x).mails = s.mails := rfl
@[simp] theorem State.setTile_starts (s : State) (c t : Nat) (x : Tile) : (s.setTile c t x).starts = s.starts := rfl
@[simp] theorem State.setTile_peers (s : State) (c t : Nat) (x : Tile) : (s.setTile c t x).peers = s.peers := rfl
@[simp] theorem State.setTile_lostDies (s : State) (c t : Nat) (x : Tile) : (s.setTile c t x).lostDies = s.lostDies := rfl
@[simp] theorem State.setTile_urgentFor (s : State) (c t : Nat) (x : Tile) : (s.setTile c t x).urgentFor = s.urgentFor := rfl
@[simp] theorem State.setTile_ctlErr (s : State) (c t : Nat) (x : Tile) : (s.setTile c t x).ctlErr = s.ctlErr := rfl
@[simp] theorem State.setTile_skipLast (s : State) (c t : Nat) (x : Tile) : (s.setTile c t x).skipLast = s.skipLast := rfl
@[simp] theorem State.setTile_skipTotal (s : State) (c t : Nat) (x : Tile) : (s.setTile c t x).skipTotal = s.skipTotal := rfl
@[simp] theorem State.setTile_groups (s : State) (c t : Nat) (x : Tile) : (s.setTile c t x).groups = s.groups := rfl
@[simp] theorem State.setTile_pending (s : State) (c t : Nat) (x : Tile) : (s.setTile c t x).pending = s.pending := rfl

/-! ### setCluster changes only `clusters` -/

@[simp] theorem State.setCluster_mem (s : State) (c : Nat) (x : Cluster) : (s.setCluster c x).mem = s.mem := rfl
@[simp] theorem State.setCluster_now (s : State) (c : Nat) (x : Cluster) : (s.setCluster c x).now = s.now := rfl
@[simp] theorem State.setCluster_free (s : State) (c : Nat) (x : Cluster) : (s.setCluster c x).free = s.free := rfl
@[simp] theorem State.setCluster_build (s : State) (c : Nat) (x : Cluster) : (s.setCluster c x).build = s.build := rfl
@[simp] theorem State.setCluster_grade (s : State) (c : Nat) (x : Cluster) : (s.setCluster c x).grade = s.grade := rfl
@[simp] theorem State.setCluster_tiles (s : State) (c : Nat) (x : Cluster) : (s.setCluster c x).tiles = s.tiles := rfl
@[simp] theorem State.setCluster_hw (s : State) (c : Nat) (x : Cluster) : (s.setCluster c x).hw = s.hw := rfl
@[simp] theorem State.setCluster_shape (s : State) (c : Nat) (x : Cluster) : (s.setCluster c x).shape = s.shape := rfl
@[simp] theorem State.setCluster_pendShape (s : State) (c : Nat) (x : Cluster) : (s.setCluster c x).pendShape = s.pendShape := rfl
@[simp] theorem State.setCluster_report (s : State) (c : Nat) (x : Cluster) : (s.setCluster c x).report = s.report := rfl
@[simp] theorem State.setCluster_ctxs (s : State) (c : Nat) (x : Cluster) : (s.setCluster c x).ctxs = s.ctxs := rfl
@[simp] theorem State.setCluster_queues (s : State) (c : Nat) (x : Cluster) : (s.setCluster c x).queues = s.queues := rfl
@[simp] theorem State.setCluster_objs (s : State) (c : Nat) (x : Cluster) : (s.setCluster c x).objs = s.objs := rfl
@[simp] theorem State.setCluster_tasks (s : State) (c : Nat) (x : Cluster) : (s.setCluster c x).tasks = s.tasks := rfl
@[simp] theorem State.setCluster_taskSeq (s : State) (c : Nat) (x : Cluster) : (s.setCluster c x).taskSeq = s.taskSeq := rfl
@[simp] theorem State.setCluster_hbLimit (s : State) (c : Nat) (x : Cluster) : (s.setCluster c x).hbLimit = s.hbLimit := rfl
@[simp] theorem State.setCluster_hbAt (s : State) (c : Nat) (x : Cluster) : (s.setCluster c x).hbAt = s.hbAt := rfl
@[simp] theorem State.setCluster_expired (s : State) (c : Nat) (x : Cluster) : (s.setCluster c x).expired = s.expired := rfl
@[simp] theorem State.setCluster_latch (s : State) (c : Nat) (x : Cluster) : (s.setCluster c x).latch = s.latch := rfl
@[simp] theorem State.setCluster_scanCycles (s : State) (c : Nat) (x : Cluster) : (s.setCluster c x).scanCycles = s.scanCycles := rfl
@[simp] theorem State.setCluster_scanQueue (s : State) (c : Nat) (x : Cluster) : (s.setCluster c x).scanQueue = s.scanQueue := rfl
@[simp] theorem State.setCluster_scanSeq (s : State) (c : Nat) (x : Cluster) : (s.setCluster c x).scanSeq = s.scanSeq := rfl
@[simp] theorem State.setCluster_scanAt (s : State) (c : Nat) (x : Cluster) : (s.setCluster c x).scanAt = s.scanAt := rfl
@[simp] theorem State.setCluster_commits (s : State) (c : Nat) (x : Cluster) : (s.setCluster c x).commits = s.commits := rfl
@[simp] theorem State.setCluster_fullSeen (s : State) (c : Nat) (x : Cluster) : (s.setCluster c x).fullSeen = s.fullSeen := rfl
@[simp] theorem State.setCluster_redo (s : State) (c : Nat) (x : Cluster) : (s.setCluster c x).redo = s.redo := rfl
@[simp] theorem State.setCluster_badCrc (s : State) (c : Nat) (x : Cluster) : (s.setCluster c x).badCrc = s.badCrc := rfl
@[simp] theorem State.setCluster_rrQueue (s : State) (c : Nat) (x : Cluster) : (s.setCluster c x).rrQueue = s.rrQueue := rfl
@[simp] theorem State.setCluster_front (s : State) (c : Nat) (x : Cluster) : (s.setCluster c x).front = s.front := rfl
@[simp] theorem State.setCluster_wdLimit (s : State) (c : Nat) (x : Cluster) : (s.setCluster c x).wdLimit = s.wdLimit := rfl
@[simp] theorem State.setCluster_cellarLimit (s : State) (c : Nat) (x : Cluster) : (s.setCluster c x).cellarLimit = s.cellarLimit := rfl
@[simp] theorem State.setCluster_respLimit (s : State) (c : Nat) (x : Cluster) : (s.setCluster c x).respLimit = s.respLimit := rfl
@[simp] theorem State.setCluster_cellar (s : State) (c : Nat) (x : Cluster) : (s.setCluster c x).cellar = s.cellar := rfl
@[simp] theorem State.setCluster_cellarLost (s : State) (c : Nat) (x : Cluster) : (s.setCluster c x).cellarLost = s.cellarLost := rfl
@[simp] theorem State.setCluster_lastGrant (s : State) (c : Nat) (x : Cluster) : (s.setCluster c x).lastGrant = s.lastGrant := rfl
@[simp] theorem State.setCluster_attic (s : State) (c : Nat) (x : Cluster) : (s.setCluster c x).attic = s.attic := rfl
@[simp] theorem State.setCluster_fabric (s : State) (c : Nat) (x : Cluster) : (s.setCluster c x).fabric = s.fabric := rfl
@[simp] theorem State.setCluster_flops (s : State) (c : Nat) (x : Cluster) : (s.setCluster c x).flops = s.flops := rfl
@[simp] theorem State.setCluster_start (s : State) (c : Nat) (x : Cluster) : (s.setCluster c x).start = s.start := rfl
@[simp] theorem State.setCluster_cfg (s : State) (c : Nat) (x : Cluster) : (s.setCluster c x).cfg = s.cfg := rfl
@[simp] theorem State.setCluster_reload (s : State) (c : Nat) (x : Cluster) : (s.setCluster c x).reload = s.reload := rfl
@[simp] theorem State.setCluster_scrub (s : State) (c : Nat) (x : Cluster) : (s.setCluster c x).scrub = s.scrub := rfl
@[simp] theorem State.setCluster_hard (s : State) (c : Nat) (x : Cluster) : (s.setCluster c x).hard = s.hard := rfl
@[simp] theorem State.setCluster_faults (s : State) (c : Nat) (x : Cluster) : (s.setCluster c x).faults = s.faults := rfl
@[simp] theorem State.setCluster_sec (s : State) (c : Nat) (x : Cluster) : (s.setCluster c x).sec = s.sec := rfl
@[simp] theorem State.setCluster_power (s : State) (c : Nat) (x : Cluster) : (s.setCluster c x).power = s.power := rfl
@[simp] theorem State.setCluster_span (s : State) (c : Nat) (x : Cluster) : (s.setCluster c x).span = s.span := rfl
@[simp] theorem State.setCluster_seam (s : State) (c : Nat) (x : Cluster) : (s.setCluster c x).seam = s.seam := rfl
@[simp] theorem State.setCluster_linkOut (s : State) (c : Nat) (x : Cluster) : (s.setCluster c x).linkOut = s.linkOut := rfl
@[simp] theorem State.setCluster_linkReqs (s : State) (c : Nat) (x : Cluster) : (s.setCluster c x).linkReqs = s.linkReqs := rfl
@[simp] theorem State.setCluster_served (s : State) (c : Nat) (x : Cluster) : (s.setCluster c x).served = s.served := rfl
@[simp] theorem State.setCluster_mails (s : State) (c : Nat) (x : Cluster) : (s.setCluster c x).mails = s.mails := rfl
@[simp] theorem State.setCluster_starts (s : State) (c : Nat) (x : Cluster) : (s.setCluster c x).starts = s.starts := rfl
@[simp] theorem State.setCluster_peers (s : State) (c : Nat) (x : Cluster) : (s.setCluster c x).peers = s.peers := rfl
@[simp] theorem State.setCluster_lostDies (s : State) (c : Nat) (x : Cluster) : (s.setCluster c x).lostDies = s.lostDies := rfl
@[simp] theorem State.setCluster_urgentFor (s : State) (c : Nat) (x : Cluster) : (s.setCluster c x).urgentFor = s.urgentFor := rfl
@[simp] theorem State.setCluster_ctlErr (s : State) (c : Nat) (x : Cluster) : (s.setCluster c x).ctlErr = s.ctlErr := rfl
@[simp] theorem State.setCluster_skipLast (s : State) (c : Nat) (x : Cluster) : (s.setCluster c x).skipLast = s.skipLast := rfl
@[simp] theorem State.setCluster_skipTotal (s : State) (c : Nat) (x : Cluster) : (s.setCluster c x).skipTotal = s.skipTotal := rfl
@[simp] theorem State.setCluster_groups (s : State) (c : Nat) (x : Cluster) : (s.setCluster c x).groups = s.groups := rfl
@[simp] theorem State.setCluster_pending (s : State) (c : Nat) (x : Cluster) : (s.setCluster c x).pending = s.pending := rfl

/-! ### setTask changes only `tasks` -/

@[simp] theorem State.setTask_mem (s : State) (k : Nat) (t : Task) : (s.setTask k t).mem = s.mem := rfl
@[simp] theorem State.setTask_now (s : State) (k : Nat) (t : Task) : (s.setTask k t).now = s.now := rfl
@[simp] theorem State.setTask_free (s : State) (k : Nat) (t : Task) : (s.setTask k t).free = s.free := rfl
@[simp] theorem State.setTask_build (s : State) (k : Nat) (t : Task) : (s.setTask k t).build = s.build := rfl
@[simp] theorem State.setTask_grade (s : State) (k : Nat) (t : Task) : (s.setTask k t).grade = s.grade := rfl
@[simp] theorem State.setTask_tiles (s : State) (k : Nat) (t : Task) : (s.setTask k t).tiles = s.tiles := rfl
@[simp] theorem State.setTask_hw (s : State) (k : Nat) (t : Task) : (s.setTask k t).hw = s.hw := rfl
@[simp] theorem State.setTask_clusters (s : State) (k : Nat) (t : Task) : (s.setTask k t).clusters = s.clusters := rfl
@[simp] theorem State.setTask_shape (s : State) (k : Nat) (t : Task) : (s.setTask k t).shape = s.shape := rfl
@[simp] theorem State.setTask_pendShape (s : State) (k : Nat) (t : Task) : (s.setTask k t).pendShape = s.pendShape := rfl
@[simp] theorem State.setTask_report (s : State) (k : Nat) (t : Task) : (s.setTask k t).report = s.report := rfl
@[simp] theorem State.setTask_ctxs (s : State) (k : Nat) (t : Task) : (s.setTask k t).ctxs = s.ctxs := rfl
@[simp] theorem State.setTask_queues (s : State) (k : Nat) (t : Task) : (s.setTask k t).queues = s.queues := rfl
@[simp] theorem State.setTask_objs (s : State) (k : Nat) (t : Task) : (s.setTask k t).objs = s.objs := rfl
@[simp] theorem State.setTask_taskSeq (s : State) (k : Nat) (t : Task) : (s.setTask k t).taskSeq = s.taskSeq := rfl
@[simp] theorem State.setTask_hbLimit (s : State) (k : Nat) (t : Task) : (s.setTask k t).hbLimit = s.hbLimit := rfl
@[simp] theorem State.setTask_hbAt (s : State) (k : Nat) (t : Task) : (s.setTask k t).hbAt = s.hbAt := rfl
@[simp] theorem State.setTask_expired (s : State) (k : Nat) (t : Task) : (s.setTask k t).expired = s.expired := rfl
@[simp] theorem State.setTask_latch (s : State) (k : Nat) (t : Task) : (s.setTask k t).latch = s.latch := rfl
@[simp] theorem State.setTask_scanCycles (s : State) (k : Nat) (t : Task) : (s.setTask k t).scanCycles = s.scanCycles := rfl
@[simp] theorem State.setTask_scanQueue (s : State) (k : Nat) (t : Task) : (s.setTask k t).scanQueue = s.scanQueue := rfl
@[simp] theorem State.setTask_scanSeq (s : State) (k : Nat) (t : Task) : (s.setTask k t).scanSeq = s.scanSeq := rfl
@[simp] theorem State.setTask_scanAt (s : State) (k : Nat) (t : Task) : (s.setTask k t).scanAt = s.scanAt := rfl
@[simp] theorem State.setTask_commits (s : State) (k : Nat) (t : Task) : (s.setTask k t).commits = s.commits := rfl
@[simp] theorem State.setTask_fullSeen (s : State) (k : Nat) (t : Task) : (s.setTask k t).fullSeen = s.fullSeen := rfl
@[simp] theorem State.setTask_redo (s : State) (k : Nat) (t : Task) : (s.setTask k t).redo = s.redo := rfl
@[simp] theorem State.setTask_badCrc (s : State) (k : Nat) (t : Task) : (s.setTask k t).badCrc = s.badCrc := rfl
@[simp] theorem State.setTask_rrQueue (s : State) (k : Nat) (t : Task) : (s.setTask k t).rrQueue = s.rrQueue := rfl
@[simp] theorem State.setTask_front (s : State) (k : Nat) (t : Task) : (s.setTask k t).front = s.front := rfl
@[simp] theorem State.setTask_wdLimit (s : State) (k : Nat) (t : Task) : (s.setTask k t).wdLimit = s.wdLimit := rfl
@[simp] theorem State.setTask_cellarLimit (s : State) (k : Nat) (t : Task) : (s.setTask k t).cellarLimit = s.cellarLimit := rfl
@[simp] theorem State.setTask_respLimit (s : State) (k : Nat) (t : Task) : (s.setTask k t).respLimit = s.respLimit := rfl
@[simp] theorem State.setTask_cellar (s : State) (k : Nat) (t : Task) : (s.setTask k t).cellar = s.cellar := rfl
@[simp] theorem State.setTask_cellarLost (s : State) (k : Nat) (t : Task) : (s.setTask k t).cellarLost = s.cellarLost := rfl
@[simp] theorem State.setTask_lastGrant (s : State) (k : Nat) (t : Task) : (s.setTask k t).lastGrant = s.lastGrant := rfl
@[simp] theorem State.setTask_attic (s : State) (k : Nat) (t : Task) : (s.setTask k t).attic = s.attic := rfl
@[simp] theorem State.setTask_fabric (s : State) (k : Nat) (t : Task) : (s.setTask k t).fabric = s.fabric := rfl
@[simp] theorem State.setTask_flops (s : State) (k : Nat) (t : Task) : (s.setTask k t).flops = s.flops := rfl
@[simp] theorem State.setTask_start (s : State) (k : Nat) (t : Task) : (s.setTask k t).start = s.start := rfl
@[simp] theorem State.setTask_cfg (s : State) (k : Nat) (t : Task) : (s.setTask k t).cfg = s.cfg := rfl
@[simp] theorem State.setTask_reload (s : State) (k : Nat) (t : Task) : (s.setTask k t).reload = s.reload := rfl
@[simp] theorem State.setTask_scrub (s : State) (k : Nat) (t : Task) : (s.setTask k t).scrub = s.scrub := rfl
@[simp] theorem State.setTask_hard (s : State) (k : Nat) (t : Task) : (s.setTask k t).hard = s.hard := rfl
@[simp] theorem State.setTask_faults (s : State) (k : Nat) (t : Task) : (s.setTask k t).faults = s.faults := rfl
@[simp] theorem State.setTask_sec (s : State) (k : Nat) (t : Task) : (s.setTask k t).sec = s.sec := rfl
@[simp] theorem State.setTask_power (s : State) (k : Nat) (t : Task) : (s.setTask k t).power = s.power := rfl
@[simp] theorem State.setTask_span (s : State) (k : Nat) (t : Task) : (s.setTask k t).span = s.span := rfl
@[simp] theorem State.setTask_seam (s : State) (k : Nat) (t : Task) : (s.setTask k t).seam = s.seam := rfl
@[simp] theorem State.setTask_linkOut (s : State) (k : Nat) (t : Task) : (s.setTask k t).linkOut = s.linkOut := rfl
@[simp] theorem State.setTask_linkReqs (s : State) (k : Nat) (t : Task) : (s.setTask k t).linkReqs = s.linkReqs := rfl
@[simp] theorem State.setTask_served (s : State) (k : Nat) (t : Task) : (s.setTask k t).served = s.served := rfl
@[simp] theorem State.setTask_mails (s : State) (k : Nat) (t : Task) : (s.setTask k t).mails = s.mails := rfl
@[simp] theorem State.setTask_starts (s : State) (k : Nat) (t : Task) : (s.setTask k t).starts = s.starts := rfl
@[simp] theorem State.setTask_peers (s : State) (k : Nat) (t : Task) : (s.setTask k t).peers = s.peers := rfl
@[simp] theorem State.setTask_lostDies (s : State) (k : Nat) (t : Task) : (s.setTask k t).lostDies = s.lostDies := rfl
@[simp] theorem State.setTask_urgentFor (s : State) (k : Nat) (t : Task) : (s.setTask k t).urgentFor = s.urgentFor := rfl
@[simp] theorem State.setTask_ctlErr (s : State) (k : Nat) (t : Task) : (s.setTask k t).ctlErr = s.ctlErr := rfl
@[simp] theorem State.setTask_skipLast (s : State) (k : Nat) (t : Task) : (s.setTask k t).skipLast = s.skipLast := rfl
@[simp] theorem State.setTask_skipTotal (s : State) (k : Nat) (t : Task) : (s.setTask k t).skipTotal = s.skipTotal := rfl
@[simp] theorem State.setTask_groups (s : State) (k : Nat) (t : Task) : (s.setTask k t).groups = s.groups := rfl
@[simp] theorem State.setTask_pending (s : State) (k : Nat) (t : Task) : (s.setTask k t).pending = s.pending := rfl

/-! ### setCtx changes only `ctxs` -/

@[simp] theorem State.setCtx_mem (s : State) (k : Nat) (x : Ctx) : (s.setCtx k x).mem = s.mem := rfl
@[simp] theorem State.setCtx_now (s : State) (k : Nat) (x : Ctx) : (s.setCtx k x).now = s.now := rfl
@[simp] theorem State.setCtx_free (s : State) (k : Nat) (x : Ctx) : (s.setCtx k x).free = s.free := rfl
@[simp] theorem State.setCtx_build (s : State) (k : Nat) (x : Ctx) : (s.setCtx k x).build = s.build := rfl
@[simp] theorem State.setCtx_grade (s : State) (k : Nat) (x : Ctx) : (s.setCtx k x).grade = s.grade := rfl
@[simp] theorem State.setCtx_tiles (s : State) (k : Nat) (x : Ctx) : (s.setCtx k x).tiles = s.tiles := rfl
@[simp] theorem State.setCtx_hw (s : State) (k : Nat) (x : Ctx) : (s.setCtx k x).hw = s.hw := rfl
@[simp] theorem State.setCtx_clusters (s : State) (k : Nat) (x : Ctx) : (s.setCtx k x).clusters = s.clusters := rfl
@[simp] theorem State.setCtx_shape (s : State) (k : Nat) (x : Ctx) : (s.setCtx k x).shape = s.shape := rfl
@[simp] theorem State.setCtx_pendShape (s : State) (k : Nat) (x : Ctx) : (s.setCtx k x).pendShape = s.pendShape := rfl
@[simp] theorem State.setCtx_report (s : State) (k : Nat) (x : Ctx) : (s.setCtx k x).report = s.report := rfl
@[simp] theorem State.setCtx_queues (s : State) (k : Nat) (x : Ctx) : (s.setCtx k x).queues = s.queues := rfl
@[simp] theorem State.setCtx_objs (s : State) (k : Nat) (x : Ctx) : (s.setCtx k x).objs = s.objs := rfl
@[simp] theorem State.setCtx_tasks (s : State) (k : Nat) (x : Ctx) : (s.setCtx k x).tasks = s.tasks := rfl
@[simp] theorem State.setCtx_taskSeq (s : State) (k : Nat) (x : Ctx) : (s.setCtx k x).taskSeq = s.taskSeq := rfl
@[simp] theorem State.setCtx_hbLimit (s : State) (k : Nat) (x : Ctx) : (s.setCtx k x).hbLimit = s.hbLimit := rfl
@[simp] theorem State.setCtx_hbAt (s : State) (k : Nat) (x : Ctx) : (s.setCtx k x).hbAt = s.hbAt := rfl
@[simp] theorem State.setCtx_expired (s : State) (k : Nat) (x : Ctx) : (s.setCtx k x).expired = s.expired := rfl
@[simp] theorem State.setCtx_latch (s : State) (k : Nat) (x : Ctx) : (s.setCtx k x).latch = s.latch := rfl
@[simp] theorem State.setCtx_scanCycles (s : State) (k : Nat) (x : Ctx) : (s.setCtx k x).scanCycles = s.scanCycles := rfl
@[simp] theorem State.setCtx_scanQueue (s : State) (k : Nat) (x : Ctx) : (s.setCtx k x).scanQueue = s.scanQueue := rfl
@[simp] theorem State.setCtx_scanSeq (s : State) (k : Nat) (x : Ctx) : (s.setCtx k x).scanSeq = s.scanSeq := rfl
@[simp] theorem State.setCtx_scanAt (s : State) (k : Nat) (x : Ctx) : (s.setCtx k x).scanAt = s.scanAt := rfl
@[simp] theorem State.setCtx_commits (s : State) (k : Nat) (x : Ctx) : (s.setCtx k x).commits = s.commits := rfl
@[simp] theorem State.setCtx_fullSeen (s : State) (k : Nat) (x : Ctx) : (s.setCtx k x).fullSeen = s.fullSeen := rfl
@[simp] theorem State.setCtx_redo (s : State) (k : Nat) (x : Ctx) : (s.setCtx k x).redo = s.redo := rfl
@[simp] theorem State.setCtx_badCrc (s : State) (k : Nat) (x : Ctx) : (s.setCtx k x).badCrc = s.badCrc := rfl
@[simp] theorem State.setCtx_rrQueue (s : State) (k : Nat) (x : Ctx) : (s.setCtx k x).rrQueue = s.rrQueue := rfl
@[simp] theorem State.setCtx_front (s : State) (k : Nat) (x : Ctx) : (s.setCtx k x).front = s.front := rfl
@[simp] theorem State.setCtx_wdLimit (s : State) (k : Nat) (x : Ctx) : (s.setCtx k x).wdLimit = s.wdLimit := rfl
@[simp] theorem State.setCtx_cellarLimit (s : State) (k : Nat) (x : Ctx) : (s.setCtx k x).cellarLimit = s.cellarLimit := rfl
@[simp] theorem State.setCtx_respLimit (s : State) (k : Nat) (x : Ctx) : (s.setCtx k x).respLimit = s.respLimit := rfl
@[simp] theorem State.setCtx_cellar (s : State) (k : Nat) (x : Ctx) : (s.setCtx k x).cellar = s.cellar := rfl
@[simp] theorem State.setCtx_cellarLost (s : State) (k : Nat) (x : Ctx) : (s.setCtx k x).cellarLost = s.cellarLost := rfl
@[simp] theorem State.setCtx_lastGrant (s : State) (k : Nat) (x : Ctx) : (s.setCtx k x).lastGrant = s.lastGrant := rfl
@[simp] theorem State.setCtx_attic (s : State) (k : Nat) (x : Ctx) : (s.setCtx k x).attic = s.attic := rfl
@[simp] theorem State.setCtx_fabric (s : State) (k : Nat) (x : Ctx) : (s.setCtx k x).fabric = s.fabric := rfl
@[simp] theorem State.setCtx_flops (s : State) (k : Nat) (x : Ctx) : (s.setCtx k x).flops = s.flops := rfl
@[simp] theorem State.setCtx_start (s : State) (k : Nat) (x : Ctx) : (s.setCtx k x).start = s.start := rfl
@[simp] theorem State.setCtx_cfg (s : State) (k : Nat) (x : Ctx) : (s.setCtx k x).cfg = s.cfg := rfl
@[simp] theorem State.setCtx_reload (s : State) (k : Nat) (x : Ctx) : (s.setCtx k x).reload = s.reload := rfl
@[simp] theorem State.setCtx_scrub (s : State) (k : Nat) (x : Ctx) : (s.setCtx k x).scrub = s.scrub := rfl
@[simp] theorem State.setCtx_hard (s : State) (k : Nat) (x : Ctx) : (s.setCtx k x).hard = s.hard := rfl
@[simp] theorem State.setCtx_faults (s : State) (k : Nat) (x : Ctx) : (s.setCtx k x).faults = s.faults := rfl
@[simp] theorem State.setCtx_sec (s : State) (k : Nat) (x : Ctx) : (s.setCtx k x).sec = s.sec := rfl
@[simp] theorem State.setCtx_power (s : State) (k : Nat) (x : Ctx) : (s.setCtx k x).power = s.power := rfl
@[simp] theorem State.setCtx_span (s : State) (k : Nat) (x : Ctx) : (s.setCtx k x).span = s.span := rfl
@[simp] theorem State.setCtx_seam (s : State) (k : Nat) (x : Ctx) : (s.setCtx k x).seam = s.seam := rfl
@[simp] theorem State.setCtx_linkOut (s : State) (k : Nat) (x : Ctx) : (s.setCtx k x).linkOut = s.linkOut := rfl
@[simp] theorem State.setCtx_linkReqs (s : State) (k : Nat) (x : Ctx) : (s.setCtx k x).linkReqs = s.linkReqs := rfl
@[simp] theorem State.setCtx_served (s : State) (k : Nat) (x : Ctx) : (s.setCtx k x).served = s.served := rfl
@[simp] theorem State.setCtx_mails (s : State) (k : Nat) (x : Ctx) : (s.setCtx k x).mails = s.mails := rfl
@[simp] theorem State.setCtx_starts (s : State) (k : Nat) (x : Ctx) : (s.setCtx k x).starts = s.starts := rfl
@[simp] theorem State.setCtx_peers (s : State) (k : Nat) (x : Ctx) : (s.setCtx k x).peers = s.peers := rfl
@[simp] theorem State.setCtx_lostDies (s : State) (k : Nat) (x : Ctx) : (s.setCtx k x).lostDies = s.lostDies := rfl
@[simp] theorem State.setCtx_urgentFor (s : State) (k : Nat) (x : Ctx) : (s.setCtx k x).urgentFor = s.urgentFor := rfl
@[simp] theorem State.setCtx_ctlErr (s : State) (k : Nat) (x : Ctx) : (s.setCtx k x).ctlErr = s.ctlErr := rfl
@[simp] theorem State.setCtx_skipLast (s : State) (k : Nat) (x : Ctx) : (s.setCtx k x).skipLast = s.skipLast := rfl
@[simp] theorem State.setCtx_skipTotal (s : State) (k : Nat) (x : Ctx) : (s.setCtx k x).skipTotal = s.skipTotal := rfl
@[simp] theorem State.setCtx_groups (s : State) (k : Nat) (x : Ctx) : (s.setCtx k x).groups = s.groups := rfl
@[simp] theorem State.setCtx_pending (s : State) (k : Nat) (x : Ctx) : (s.setCtx k x).pending = s.pending := rfl

/-! ### setQueue changes only `queues` -/

@[simp] theorem State.setQueue_mem (s : State) (q : Nat) (x : HostQ) : (s.setQueue q x).mem = s.mem := rfl
@[simp] theorem State.setQueue_now (s : State) (q : Nat) (x : HostQ) : (s.setQueue q x).now = s.now := rfl
@[simp] theorem State.setQueue_free (s : State) (q : Nat) (x : HostQ) : (s.setQueue q x).free = s.free := rfl
@[simp] theorem State.setQueue_build (s : State) (q : Nat) (x : HostQ) : (s.setQueue q x).build = s.build := rfl
@[simp] theorem State.setQueue_grade (s : State) (q : Nat) (x : HostQ) : (s.setQueue q x).grade = s.grade := rfl
@[simp] theorem State.setQueue_tiles (s : State) (q : Nat) (x : HostQ) : (s.setQueue q x).tiles = s.tiles := rfl
@[simp] theorem State.setQueue_hw (s : State) (q : Nat) (x : HostQ) : (s.setQueue q x).hw = s.hw := rfl
@[simp] theorem State.setQueue_clusters (s : State) (q : Nat) (x : HostQ) : (s.setQueue q x).clusters = s.clusters := rfl
@[simp] theorem State.setQueue_shape (s : State) (q : Nat) (x : HostQ) : (s.setQueue q x).shape = s.shape := rfl
@[simp] theorem State.setQueue_pendShape (s : State) (q : Nat) (x : HostQ) : (s.setQueue q x).pendShape = s.pendShape := rfl
@[simp] theorem State.setQueue_report (s : State) (q : Nat) (x : HostQ) : (s.setQueue q x).report = s.report := rfl
@[simp] theorem State.setQueue_ctxs (s : State) (q : Nat) (x : HostQ) : (s.setQueue q x).ctxs = s.ctxs := rfl
@[simp] theorem State.setQueue_objs (s : State) (q : Nat) (x : HostQ) : (s.setQueue q x).objs = s.objs := rfl
@[simp] theorem State.setQueue_tasks (s : State) (q : Nat) (x : HostQ) : (s.setQueue q x).tasks = s.tasks := rfl
@[simp] theorem State.setQueue_taskSeq (s : State) (q : Nat) (x : HostQ) : (s.setQueue q x).taskSeq = s.taskSeq := rfl
@[simp] theorem State.setQueue_hbLimit (s : State) (q : Nat) (x : HostQ) : (s.setQueue q x).hbLimit = s.hbLimit := rfl
@[simp] theorem State.setQueue_hbAt (s : State) (q : Nat) (x : HostQ) : (s.setQueue q x).hbAt = s.hbAt := rfl
@[simp] theorem State.setQueue_expired (s : State) (q : Nat) (x : HostQ) : (s.setQueue q x).expired = s.expired := rfl
@[simp] theorem State.setQueue_latch (s : State) (q : Nat) (x : HostQ) : (s.setQueue q x).latch = s.latch := rfl
@[simp] theorem State.setQueue_scanCycles (s : State) (q : Nat) (x : HostQ) : (s.setQueue q x).scanCycles = s.scanCycles := rfl
@[simp] theorem State.setQueue_scanQueue (s : State) (q : Nat) (x : HostQ) : (s.setQueue q x).scanQueue = s.scanQueue := rfl
@[simp] theorem State.setQueue_scanSeq (s : State) (q : Nat) (x : HostQ) : (s.setQueue q x).scanSeq = s.scanSeq := rfl
@[simp] theorem State.setQueue_scanAt (s : State) (q : Nat) (x : HostQ) : (s.setQueue q x).scanAt = s.scanAt := rfl
@[simp] theorem State.setQueue_commits (s : State) (q : Nat) (x : HostQ) : (s.setQueue q x).commits = s.commits := rfl
@[simp] theorem State.setQueue_fullSeen (s : State) (q : Nat) (x : HostQ) : (s.setQueue q x).fullSeen = s.fullSeen := rfl
@[simp] theorem State.setQueue_redo (s : State) (q : Nat) (x : HostQ) : (s.setQueue q x).redo = s.redo := rfl
@[simp] theorem State.setQueue_badCrc (s : State) (q : Nat) (x : HostQ) : (s.setQueue q x).badCrc = s.badCrc := rfl
@[simp] theorem State.setQueue_rrQueue (s : State) (q : Nat) (x : HostQ) : (s.setQueue q x).rrQueue = s.rrQueue := rfl
@[simp] theorem State.setQueue_front (s : State) (q : Nat) (x : HostQ) : (s.setQueue q x).front = s.front := rfl
@[simp] theorem State.setQueue_wdLimit (s : State) (q : Nat) (x : HostQ) : (s.setQueue q x).wdLimit = s.wdLimit := rfl
@[simp] theorem State.setQueue_cellarLimit (s : State) (q : Nat) (x : HostQ) : (s.setQueue q x).cellarLimit = s.cellarLimit := rfl
@[simp] theorem State.setQueue_respLimit (s : State) (q : Nat) (x : HostQ) : (s.setQueue q x).respLimit = s.respLimit := rfl
@[simp] theorem State.setQueue_cellar (s : State) (q : Nat) (x : HostQ) : (s.setQueue q x).cellar = s.cellar := rfl
@[simp] theorem State.setQueue_cellarLost (s : State) (q : Nat) (x : HostQ) : (s.setQueue q x).cellarLost = s.cellarLost := rfl
@[simp] theorem State.setQueue_lastGrant (s : State) (q : Nat) (x : HostQ) : (s.setQueue q x).lastGrant = s.lastGrant := rfl
@[simp] theorem State.setQueue_attic (s : State) (q : Nat) (x : HostQ) : (s.setQueue q x).attic = s.attic := rfl
@[simp] theorem State.setQueue_fabric (s : State) (q : Nat) (x : HostQ) : (s.setQueue q x).fabric = s.fabric := rfl
@[simp] theorem State.setQueue_flops (s : State) (q : Nat) (x : HostQ) : (s.setQueue q x).flops = s.flops := rfl
@[simp] theorem State.setQueue_start (s : State) (q : Nat) (x : HostQ) : (s.setQueue q x).start = s.start := rfl
@[simp] theorem State.setQueue_cfg (s : State) (q : Nat) (x : HostQ) : (s.setQueue q x).cfg = s.cfg := rfl
@[simp] theorem State.setQueue_reload (s : State) (q : Nat) (x : HostQ) : (s.setQueue q x).reload = s.reload := rfl
@[simp] theorem State.setQueue_scrub (s : State) (q : Nat) (x : HostQ) : (s.setQueue q x).scrub = s.scrub := rfl
@[simp] theorem State.setQueue_hard (s : State) (q : Nat) (x : HostQ) : (s.setQueue q x).hard = s.hard := rfl
@[simp] theorem State.setQueue_faults (s : State) (q : Nat) (x : HostQ) : (s.setQueue q x).faults = s.faults := rfl
@[simp] theorem State.setQueue_sec (s : State) (q : Nat) (x : HostQ) : (s.setQueue q x).sec = s.sec := rfl
@[simp] theorem State.setQueue_power (s : State) (q : Nat) (x : HostQ) : (s.setQueue q x).power = s.power := rfl
@[simp] theorem State.setQueue_span (s : State) (q : Nat) (x : HostQ) : (s.setQueue q x).span = s.span := rfl
@[simp] theorem State.setQueue_seam (s : State) (q : Nat) (x : HostQ) : (s.setQueue q x).seam = s.seam := rfl
@[simp] theorem State.setQueue_linkOut (s : State) (q : Nat) (x : HostQ) : (s.setQueue q x).linkOut = s.linkOut := rfl
@[simp] theorem State.setQueue_linkReqs (s : State) (q : Nat) (x : HostQ) : (s.setQueue q x).linkReqs = s.linkReqs := rfl
@[simp] theorem State.setQueue_served (s : State) (q : Nat) (x : HostQ) : (s.setQueue q x).served = s.served := rfl
@[simp] theorem State.setQueue_mails (s : State) (q : Nat) (x : HostQ) : (s.setQueue q x).mails = s.mails := rfl
@[simp] theorem State.setQueue_starts (s : State) (q : Nat) (x : HostQ) : (s.setQueue q x).starts = s.starts := rfl
@[simp] theorem State.setQueue_peers (s : State) (q : Nat) (x : HostQ) : (s.setQueue q x).peers = s.peers := rfl
@[simp] theorem State.setQueue_lostDies (s : State) (q : Nat) (x : HostQ) : (s.setQueue q x).lostDies = s.lostDies := rfl
@[simp] theorem State.setQueue_urgentFor (s : State) (q : Nat) (x : HostQ) : (s.setQueue q x).urgentFor = s.urgentFor := rfl
@[simp] theorem State.setQueue_ctlErr (s : State) (q : Nat) (x : HostQ) : (s.setQueue q x).ctlErr = s.ctlErr := rfl
@[simp] theorem State.setQueue_skipLast (s : State) (q : Nat) (x : HostQ) : (s.setQueue q x).skipLast = s.skipLast := rfl
@[simp] theorem State.setQueue_skipTotal (s : State) (q : Nat) (x : HostQ) : (s.setQueue q x).skipTotal = s.skipTotal := rfl
@[simp] theorem State.setQueue_groups (s : State) (q : Nat) (x : HostQ) : (s.setQueue q x).groups = s.groups := rfl
@[simp] theorem State.setQueue_pending (s : State) (q : Nat) (x : HostQ) : (s.setQueue q x).pending = s.pending := rfl

/-! ### setObj changes only `objs` -/

@[simp] theorem State.setObj_mem (s : State) (i : Nat) (x : Obj) : (s.setObj i x).mem = s.mem := rfl
@[simp] theorem State.setObj_now (s : State) (i : Nat) (x : Obj) : (s.setObj i x).now = s.now := rfl
@[simp] theorem State.setObj_free (s : State) (i : Nat) (x : Obj) : (s.setObj i x).free = s.free := rfl
@[simp] theorem State.setObj_build (s : State) (i : Nat) (x : Obj) : (s.setObj i x).build = s.build := rfl
@[simp] theorem State.setObj_grade (s : State) (i : Nat) (x : Obj) : (s.setObj i x).grade = s.grade := rfl
@[simp] theorem State.setObj_tiles (s : State) (i : Nat) (x : Obj) : (s.setObj i x).tiles = s.tiles := rfl
@[simp] theorem State.setObj_hw (s : State) (i : Nat) (x : Obj) : (s.setObj i x).hw = s.hw := rfl
@[simp] theorem State.setObj_clusters (s : State) (i : Nat) (x : Obj) : (s.setObj i x).clusters = s.clusters := rfl
@[simp] theorem State.setObj_shape (s : State) (i : Nat) (x : Obj) : (s.setObj i x).shape = s.shape := rfl
@[simp] theorem State.setObj_pendShape (s : State) (i : Nat) (x : Obj) : (s.setObj i x).pendShape = s.pendShape := rfl
@[simp] theorem State.setObj_report (s : State) (i : Nat) (x : Obj) : (s.setObj i x).report = s.report := rfl
@[simp] theorem State.setObj_ctxs (s : State) (i : Nat) (x : Obj) : (s.setObj i x).ctxs = s.ctxs := rfl
@[simp] theorem State.setObj_queues (s : State) (i : Nat) (x : Obj) : (s.setObj i x).queues = s.queues := rfl
@[simp] theorem State.setObj_tasks (s : State) (i : Nat) (x : Obj) : (s.setObj i x).tasks = s.tasks := rfl
@[simp] theorem State.setObj_taskSeq (s : State) (i : Nat) (x : Obj) : (s.setObj i x).taskSeq = s.taskSeq := rfl
@[simp] theorem State.setObj_hbLimit (s : State) (i : Nat) (x : Obj) : (s.setObj i x).hbLimit = s.hbLimit := rfl
@[simp] theorem State.setObj_hbAt (s : State) (i : Nat) (x : Obj) : (s.setObj i x).hbAt = s.hbAt := rfl
@[simp] theorem State.setObj_expired (s : State) (i : Nat) (x : Obj) : (s.setObj i x).expired = s.expired := rfl
@[simp] theorem State.setObj_latch (s : State) (i : Nat) (x : Obj) : (s.setObj i x).latch = s.latch := rfl
@[simp] theorem State.setObj_scanCycles (s : State) (i : Nat) (x : Obj) : (s.setObj i x).scanCycles = s.scanCycles := rfl
@[simp] theorem State.setObj_scanQueue (s : State) (i : Nat) (x : Obj) : (s.setObj i x).scanQueue = s.scanQueue := rfl
@[simp] theorem State.setObj_scanSeq (s : State) (i : Nat) (x : Obj) : (s.setObj i x).scanSeq = s.scanSeq := rfl
@[simp] theorem State.setObj_scanAt (s : State) (i : Nat) (x : Obj) : (s.setObj i x).scanAt = s.scanAt := rfl
@[simp] theorem State.setObj_commits (s : State) (i : Nat) (x : Obj) : (s.setObj i x).commits = s.commits := rfl
@[simp] theorem State.setObj_fullSeen (s : State) (i : Nat) (x : Obj) : (s.setObj i x).fullSeen = s.fullSeen := rfl
@[simp] theorem State.setObj_redo (s : State) (i : Nat) (x : Obj) : (s.setObj i x).redo = s.redo := rfl
@[simp] theorem State.setObj_badCrc (s : State) (i : Nat) (x : Obj) : (s.setObj i x).badCrc = s.badCrc := rfl
@[simp] theorem State.setObj_rrQueue (s : State) (i : Nat) (x : Obj) : (s.setObj i x).rrQueue = s.rrQueue := rfl
@[simp] theorem State.setObj_front (s : State) (i : Nat) (x : Obj) : (s.setObj i x).front = s.front := rfl
@[simp] theorem State.setObj_wdLimit (s : State) (i : Nat) (x : Obj) : (s.setObj i x).wdLimit = s.wdLimit := rfl
@[simp] theorem State.setObj_cellarLimit (s : State) (i : Nat) (x : Obj) : (s.setObj i x).cellarLimit = s.cellarLimit := rfl
@[simp] theorem State.setObj_respLimit (s : State) (i : Nat) (x : Obj) : (s.setObj i x).respLimit = s.respLimit := rfl
@[simp] theorem State.setObj_cellar (s : State) (i : Nat) (x : Obj) : (s.setObj i x).cellar = s.cellar := rfl
@[simp] theorem State.setObj_cellarLost (s : State) (i : Nat) (x : Obj) : (s.setObj i x).cellarLost = s.cellarLost := rfl
@[simp] theorem State.setObj_lastGrant (s : State) (i : Nat) (x : Obj) : (s.setObj i x).lastGrant = s.lastGrant := rfl
@[simp] theorem State.setObj_attic (s : State) (i : Nat) (x : Obj) : (s.setObj i x).attic = s.attic := rfl
@[simp] theorem State.setObj_fabric (s : State) (i : Nat) (x : Obj) : (s.setObj i x).fabric = s.fabric := rfl
@[simp] theorem State.setObj_flops (s : State) (i : Nat) (x : Obj) : (s.setObj i x).flops = s.flops := rfl
@[simp] theorem State.setObj_start (s : State) (i : Nat) (x : Obj) : (s.setObj i x).start = s.start := rfl
@[simp] theorem State.setObj_cfg (s : State) (i : Nat) (x : Obj) : (s.setObj i x).cfg = s.cfg := rfl
@[simp] theorem State.setObj_reload (s : State) (i : Nat) (x : Obj) : (s.setObj i x).reload = s.reload := rfl
@[simp] theorem State.setObj_scrub (s : State) (i : Nat) (x : Obj) : (s.setObj i x).scrub = s.scrub := rfl
@[simp] theorem State.setObj_hard (s : State) (i : Nat) (x : Obj) : (s.setObj i x).hard = s.hard := rfl
@[simp] theorem State.setObj_faults (s : State) (i : Nat) (x : Obj) : (s.setObj i x).faults = s.faults := rfl
@[simp] theorem State.setObj_sec (s : State) (i : Nat) (x : Obj) : (s.setObj i x).sec = s.sec := rfl
@[simp] theorem State.setObj_power (s : State) (i : Nat) (x : Obj) : (s.setObj i x).power = s.power := rfl
@[simp] theorem State.setObj_span (s : State) (i : Nat) (x : Obj) : (s.setObj i x).span = s.span := rfl
@[simp] theorem State.setObj_seam (s : State) (i : Nat) (x : Obj) : (s.setObj i x).seam = s.seam := rfl
@[simp] theorem State.setObj_linkOut (s : State) (i : Nat) (x : Obj) : (s.setObj i x).linkOut = s.linkOut := rfl
@[simp] theorem State.setObj_linkReqs (s : State) (i : Nat) (x : Obj) : (s.setObj i x).linkReqs = s.linkReqs := rfl
@[simp] theorem State.setObj_served (s : State) (i : Nat) (x : Obj) : (s.setObj i x).served = s.served := rfl
@[simp] theorem State.setObj_mails (s : State) (i : Nat) (x : Obj) : (s.setObj i x).mails = s.mails := rfl
@[simp] theorem State.setObj_starts (s : State) (i : Nat) (x : Obj) : (s.setObj i x).starts = s.starts := rfl
@[simp] theorem State.setObj_peers (s : State) (i : Nat) (x : Obj) : (s.setObj i x).peers = s.peers := rfl
@[simp] theorem State.setObj_lostDies (s : State) (i : Nat) (x : Obj) : (s.setObj i x).lostDies = s.lostDies := rfl
@[simp] theorem State.setObj_urgentFor (s : State) (i : Nat) (x : Obj) : (s.setObj i x).urgentFor = s.urgentFor := rfl
@[simp] theorem State.setObj_ctlErr (s : State) (i : Nat) (x : Obj) : (s.setObj i x).ctlErr = s.ctlErr := rfl
@[simp] theorem State.setObj_skipLast (s : State) (i : Nat) (x : Obj) : (s.setObj i x).skipLast = s.skipLast := rfl
@[simp] theorem State.setObj_skipTotal (s : State) (i : Nat) (x : Obj) : (s.setObj i x).skipTotal = s.skipTotal := rfl
@[simp] theorem State.setObj_groups (s : State) (i : Nat) (x : Obj) : (s.setObj i x).groups = s.groups := rfl
@[simp] theorem State.setObj_pending (s : State) (i : Nat) (x : Obj) : (s.setObj i x).pending = s.pending := rfl

/-! ### onPort changes only `front` -/

@[simp] theorem State.onPort_mem (s : State) (f : Nat) (g : Front → Front) : (s.onPort f g).mem = s.mem := rfl
@[simp] theorem State.onPort_now (s : State) (f : Nat) (g : Front → Front) : (s.onPort f g).now = s.now := rfl
@[simp] theorem State.onPort_free (s : State) (f : Nat) (g : Front → Front) : (s.onPort f g).free = s.free := rfl
@[simp] theorem State.onPort_build (s : State) (f : Nat) (g : Front → Front) : (s.onPort f g).build = s.build := rfl
@[simp] theorem State.onPort_grade (s : State) (f : Nat) (g : Front → Front) : (s.onPort f g).grade = s.grade := rfl
@[simp] theorem State.onPort_tiles (s : State) (f : Nat) (g : Front → Front) : (s.onPort f g).tiles = s.tiles := rfl
@[simp] theorem State.onPort_hw (s : State) (f : Nat) (g : Front → Front) : (s.onPort f g).hw = s.hw := rfl
@[simp] theorem State.onPort_clusters (s : State) (f : Nat) (g : Front → Front) : (s.onPort f g).clusters = s.clusters := rfl
@[simp] theorem State.onPort_shape (s : State) (f : Nat) (g : Front → Front) : (s.onPort f g).shape = s.shape := rfl
@[simp] theorem State.onPort_pendShape (s : State) (f : Nat) (g : Front → Front) : (s.onPort f g).pendShape = s.pendShape := rfl
@[simp] theorem State.onPort_report (s : State) (f : Nat) (g : Front → Front) : (s.onPort f g).report = s.report := rfl
@[simp] theorem State.onPort_ctxs (s : State) (f : Nat) (g : Front → Front) : (s.onPort f g).ctxs = s.ctxs := rfl
@[simp] theorem State.onPort_queues (s : State) (f : Nat) (g : Front → Front) : (s.onPort f g).queues = s.queues := rfl
@[simp] theorem State.onPort_objs (s : State) (f : Nat) (g : Front → Front) : (s.onPort f g).objs = s.objs := rfl
@[simp] theorem State.onPort_tasks (s : State) (f : Nat) (g : Front → Front) : (s.onPort f g).tasks = s.tasks := rfl
@[simp] theorem State.onPort_taskSeq (s : State) (f : Nat) (g : Front → Front) : (s.onPort f g).taskSeq = s.taskSeq := rfl
@[simp] theorem State.onPort_hbLimit (s : State) (f : Nat) (g : Front → Front) : (s.onPort f g).hbLimit = s.hbLimit := rfl
@[simp] theorem State.onPort_hbAt (s : State) (f : Nat) (g : Front → Front) : (s.onPort f g).hbAt = s.hbAt := rfl
@[simp] theorem State.onPort_expired (s : State) (f : Nat) (g : Front → Front) : (s.onPort f g).expired = s.expired := rfl
@[simp] theorem State.onPort_latch (s : State) (f : Nat) (g : Front → Front) : (s.onPort f g).latch = s.latch := rfl
@[simp] theorem State.onPort_scanCycles (s : State) (f : Nat) (g : Front → Front) : (s.onPort f g).scanCycles = s.scanCycles := rfl
@[simp] theorem State.onPort_scanQueue (s : State) (f : Nat) (g : Front → Front) : (s.onPort f g).scanQueue = s.scanQueue := rfl
@[simp] theorem State.onPort_scanSeq (s : State) (f : Nat) (g : Front → Front) : (s.onPort f g).scanSeq = s.scanSeq := rfl
@[simp] theorem State.onPort_scanAt (s : State) (f : Nat) (g : Front → Front) : (s.onPort f g).scanAt = s.scanAt := rfl
@[simp] theorem State.onPort_commits (s : State) (f : Nat) (g : Front → Front) : (s.onPort f g).commits = s.commits := rfl
@[simp] theorem State.onPort_fullSeen (s : State) (f : Nat) (g : Front → Front) : (s.onPort f g).fullSeen = s.fullSeen := rfl
@[simp] theorem State.onPort_redo (s : State) (f : Nat) (g : Front → Front) : (s.onPort f g).redo = s.redo := rfl
@[simp] theorem State.onPort_badCrc (s : State) (f : Nat) (g : Front → Front) : (s.onPort f g).badCrc = s.badCrc := rfl
@[simp] theorem State.onPort_rrQueue (s : State) (f : Nat) (g : Front → Front) : (s.onPort f g).rrQueue = s.rrQueue := rfl
@[simp] theorem State.onPort_wdLimit (s : State) (f : Nat) (g : Front → Front) : (s.onPort f g).wdLimit = s.wdLimit := rfl
@[simp] theorem State.onPort_cellarLimit (s : State) (f : Nat) (g : Front → Front) : (s.onPort f g).cellarLimit = s.cellarLimit := rfl
@[simp] theorem State.onPort_respLimit (s : State) (f : Nat) (g : Front → Front) : (s.onPort f g).respLimit = s.respLimit := rfl
@[simp] theorem State.onPort_cellar (s : State) (f : Nat) (g : Front → Front) : (s.onPort f g).cellar = s.cellar := rfl
@[simp] theorem State.onPort_cellarLost (s : State) (f : Nat) (g : Front → Front) : (s.onPort f g).cellarLost = s.cellarLost := rfl
@[simp] theorem State.onPort_lastGrant (s : State) (f : Nat) (g : Front → Front) : (s.onPort f g).lastGrant = s.lastGrant := rfl
@[simp] theorem State.onPort_attic (s : State) (f : Nat) (g : Front → Front) : (s.onPort f g).attic = s.attic := rfl
@[simp] theorem State.onPort_fabric (s : State) (f : Nat) (g : Front → Front) : (s.onPort f g).fabric = s.fabric := rfl
@[simp] theorem State.onPort_flops (s : State) (f : Nat) (g : Front → Front) : (s.onPort f g).flops = s.flops := rfl
@[simp] theorem State.onPort_start (s : State) (f : Nat) (g : Front → Front) : (s.onPort f g).start = s.start := rfl
@[simp] theorem State.onPort_cfg (s : State) (f : Nat) (g : Front → Front) : (s.onPort f g).cfg = s.cfg := rfl
@[simp] theorem State.onPort_reload (s : State) (f : Nat) (g : Front → Front) : (s.onPort f g).reload = s.reload := rfl
@[simp] theorem State.onPort_scrub (s : State) (f : Nat) (g : Front → Front) : (s.onPort f g).scrub = s.scrub := rfl
@[simp] theorem State.onPort_hard (s : State) (f : Nat) (g : Front → Front) : (s.onPort f g).hard = s.hard := rfl
@[simp] theorem State.onPort_faults (s : State) (f : Nat) (g : Front → Front) : (s.onPort f g).faults = s.faults := rfl
@[simp] theorem State.onPort_sec (s : State) (f : Nat) (g : Front → Front) : (s.onPort f g).sec = s.sec := rfl
@[simp] theorem State.onPort_power (s : State) (f : Nat) (g : Front → Front) : (s.onPort f g).power = s.power := rfl
@[simp] theorem State.onPort_span (s : State) (f : Nat) (g : Front → Front) : (s.onPort f g).span = s.span := rfl
@[simp] theorem State.onPort_seam (s : State) (f : Nat) (g : Front → Front) : (s.onPort f g).seam = s.seam := rfl
@[simp] theorem State.onPort_linkOut (s : State) (f : Nat) (g : Front → Front) : (s.onPort f g).linkOut = s.linkOut := rfl
@[simp] theorem State.onPort_linkReqs (s : State) (f : Nat) (g : Front → Front) : (s.onPort f g).linkReqs = s.linkReqs := rfl
@[simp] theorem State.onPort_served (s : State) (f : Nat) (g : Front → Front) : (s.onPort f g).served = s.served := rfl
@[simp] theorem State.onPort_mails (s : State) (f : Nat) (g : Front → Front) : (s.onPort f g).mails = s.mails := rfl
@[simp] theorem State.onPort_starts (s : State) (f : Nat) (g : Front → Front) : (s.onPort f g).starts = s.starts := rfl
@[simp] theorem State.onPort_peers (s : State) (f : Nat) (g : Front → Front) : (s.onPort f g).peers = s.peers := rfl
@[simp] theorem State.onPort_lostDies (s : State) (f : Nat) (g : Front → Front) : (s.onPort f g).lostDies = s.lostDies := rfl
@[simp] theorem State.onPort_urgentFor (s : State) (f : Nat) (g : Front → Front) : (s.onPort f g).urgentFor = s.urgentFor := rfl
@[simp] theorem State.onPort_ctlErr (s : State) (f : Nat) (g : Front → Front) : (s.onPort f g).ctlErr = s.ctlErr := rfl
@[simp] theorem State.onPort_skipLast (s : State) (f : Nat) (g : Front → Front) : (s.onPort f g).skipLast = s.skipLast := rfl
@[simp] theorem State.onPort_skipTotal (s : State) (f : Nat) (g : Front → Front) : (s.onPort f g).skipTotal = s.skipTotal := rfl
@[simp] theorem State.onPort_groups (s : State) (f : Nat) (g : Front → Front) : (s.onPort f g).groups = s.groups := rfl
@[simp] theorem State.onPort_pending (s : State) (f : Nat) (g : Front → Front) : (s.onPort f g).pending = s.pending := rfl

/-! ### onCport changes only `cellar` -/

@[simp] theorem State.onCport_mem (s : State) (p : Nat) (g : CellarPort → CellarPort) : (s.onCport p g).mem = s.mem := rfl
@[simp] theorem State.onCport_now (s : State) (p : Nat) (g : CellarPort → CellarPort) : (s.onCport p g).now = s.now := rfl
@[simp] theorem State.onCport_free (s : State) (p : Nat) (g : CellarPort → CellarPort) : (s.onCport p g).free = s.free := rfl
@[simp] theorem State.onCport_build (s : State) (p : Nat) (g : CellarPort → CellarPort) : (s.onCport p g).build = s.build := rfl
@[simp] theorem State.onCport_grade (s : State) (p : Nat) (g : CellarPort → CellarPort) : (s.onCport p g).grade = s.grade := rfl
@[simp] theorem State.onCport_tiles (s : State) (p : Nat) (g : CellarPort → CellarPort) : (s.onCport p g).tiles = s.tiles := rfl
@[simp] theorem State.onCport_hw (s : State) (p : Nat) (g : CellarPort → CellarPort) : (s.onCport p g).hw = s.hw := rfl
@[simp] theorem State.onCport_clusters (s : State) (p : Nat) (g : CellarPort → CellarPort) : (s.onCport p g).clusters = s.clusters := rfl
@[simp] theorem State.onCport_shape (s : State) (p : Nat) (g : CellarPort → CellarPort) : (s.onCport p g).shape = s.shape := rfl
@[simp] theorem State.onCport_pendShape (s : State) (p : Nat) (g : CellarPort → CellarPort) : (s.onCport p g).pendShape = s.pendShape := rfl
@[simp] theorem State.onCport_report (s : State) (p : Nat) (g : CellarPort → CellarPort) : (s.onCport p g).report = s.report := rfl
@[simp] theorem State.onCport_ctxs (s : State) (p : Nat) (g : CellarPort → CellarPort) : (s.onCport p g).ctxs = s.ctxs := rfl
@[simp] theorem State.onCport_queues (s : State) (p : Nat) (g : CellarPort → CellarPort) : (s.onCport p g).queues = s.queues := rfl
@[simp] theorem State.onCport_objs (s : State) (p : Nat) (g : CellarPort → CellarPort) : (s.onCport p g).objs = s.objs := rfl
@[simp] theorem State.onCport_tasks (s : State) (p : Nat) (g : CellarPort → CellarPort) : (s.onCport p g).tasks = s.tasks := rfl
@[simp] theorem State.onCport_taskSeq (s : State) (p : Nat) (g : CellarPort → CellarPort) : (s.onCport p g).taskSeq = s.taskSeq := rfl
@[simp] theorem State.onCport_hbLimit (s : State) (p : Nat) (g : CellarPort → CellarPort) : (s.onCport p g).hbLimit = s.hbLimit := rfl
@[simp] theorem State.onCport_hbAt (s : State) (p : Nat) (g : CellarPort → CellarPort) : (s.onCport p g).hbAt = s.hbAt := rfl
@[simp] theorem State.onCport_expired (s : State) (p : Nat) (g : CellarPort → CellarPort) : (s.onCport p g).expired = s.expired := rfl
@[simp] theorem State.onCport_latch (s : State) (p : Nat) (g : CellarPort → CellarPort) : (s.onCport p g).latch = s.latch := rfl
@[simp] theorem State.onCport_scanCycles (s : State) (p : Nat) (g : CellarPort → CellarPort) : (s.onCport p g).scanCycles = s.scanCycles := rfl
@[simp] theorem State.onCport_scanQueue (s : State) (p : Nat) (g : CellarPort → CellarPort) : (s.onCport p g).scanQueue = s.scanQueue := rfl
@[simp] theorem State.onCport_scanSeq (s : State) (p : Nat) (g : CellarPort → CellarPort) : (s.onCport p g).scanSeq = s.scanSeq := rfl
@[simp] theorem State.onCport_scanAt (s : State) (p : Nat) (g : CellarPort → CellarPort) : (s.onCport p g).scanAt = s.scanAt := rfl
@[simp] theorem State.onCport_commits (s : State) (p : Nat) (g : CellarPort → CellarPort) : (s.onCport p g).commits = s.commits := rfl
@[simp] theorem State.onCport_fullSeen (s : State) (p : Nat) (g : CellarPort → CellarPort) : (s.onCport p g).fullSeen = s.fullSeen := rfl
@[simp] theorem State.onCport_redo (s : State) (p : Nat) (g : CellarPort → CellarPort) : (s.onCport p g).redo = s.redo := rfl
@[simp] theorem State.onCport_badCrc (s : State) (p : Nat) (g : CellarPort → CellarPort) : (s.onCport p g).badCrc = s.badCrc := rfl
@[simp] theorem State.onCport_rrQueue (s : State) (p : Nat) (g : CellarPort → CellarPort) : (s.onCport p g).rrQueue = s.rrQueue := rfl
@[simp] theorem State.onCport_front (s : State) (p : Nat) (g : CellarPort → CellarPort) : (s.onCport p g).front = s.front := rfl
@[simp] theorem State.onCport_wdLimit (s : State) (p : Nat) (g : CellarPort → CellarPort) : (s.onCport p g).wdLimit = s.wdLimit := rfl
@[simp] theorem State.onCport_cellarLimit (s : State) (p : Nat) (g : CellarPort → CellarPort) : (s.onCport p g).cellarLimit = s.cellarLimit := rfl
@[simp] theorem State.onCport_respLimit (s : State) (p : Nat) (g : CellarPort → CellarPort) : (s.onCport p g).respLimit = s.respLimit := rfl
@[simp] theorem State.onCport_cellarLost (s : State) (p : Nat) (g : CellarPort → CellarPort) : (s.onCport p g).cellarLost = s.cellarLost := rfl
@[simp] theorem State.onCport_lastGrant (s : State) (p : Nat) (g : CellarPort → CellarPort) : (s.onCport p g).lastGrant = s.lastGrant := rfl
@[simp] theorem State.onCport_attic (s : State) (p : Nat) (g : CellarPort → CellarPort) : (s.onCport p g).attic = s.attic := rfl
@[simp] theorem State.onCport_fabric (s : State) (p : Nat) (g : CellarPort → CellarPort) : (s.onCport p g).fabric = s.fabric := rfl
@[simp] theorem State.onCport_flops (s : State) (p : Nat) (g : CellarPort → CellarPort) : (s.onCport p g).flops = s.flops := rfl
@[simp] theorem State.onCport_start (s : State) (p : Nat) (g : CellarPort → CellarPort) : (s.onCport p g).start = s.start := rfl
@[simp] theorem State.onCport_cfg (s : State) (p : Nat) (g : CellarPort → CellarPort) : (s.onCport p g).cfg = s.cfg := rfl
@[simp] theorem State.onCport_reload (s : State) (p : Nat) (g : CellarPort → CellarPort) : (s.onCport p g).reload = s.reload := rfl
@[simp] theorem State.onCport_scrub (s : State) (p : Nat) (g : CellarPort → CellarPort) : (s.onCport p g).scrub = s.scrub := rfl
@[simp] theorem State.onCport_hard (s : State) (p : Nat) (g : CellarPort → CellarPort) : (s.onCport p g).hard = s.hard := rfl
@[simp] theorem State.onCport_faults (s : State) (p : Nat) (g : CellarPort → CellarPort) : (s.onCport p g).faults = s.faults := rfl
@[simp] theorem State.onCport_sec (s : State) (p : Nat) (g : CellarPort → CellarPort) : (s.onCport p g).sec = s.sec := rfl
@[simp] theorem State.onCport_power (s : State) (p : Nat) (g : CellarPort → CellarPort) : (s.onCport p g).power = s.power := rfl
@[simp] theorem State.onCport_span (s : State) (p : Nat) (g : CellarPort → CellarPort) : (s.onCport p g).span = s.span := rfl
@[simp] theorem State.onCport_seam (s : State) (p : Nat) (g : CellarPort → CellarPort) : (s.onCport p g).seam = s.seam := rfl
@[simp] theorem State.onCport_linkOut (s : State) (p : Nat) (g : CellarPort → CellarPort) : (s.onCport p g).linkOut = s.linkOut := rfl
@[simp] theorem State.onCport_linkReqs (s : State) (p : Nat) (g : CellarPort → CellarPort) : (s.onCport p g).linkReqs = s.linkReqs := rfl
@[simp] theorem State.onCport_served (s : State) (p : Nat) (g : CellarPort → CellarPort) : (s.onCport p g).served = s.served := rfl
@[simp] theorem State.onCport_mails (s : State) (p : Nat) (g : CellarPort → CellarPort) : (s.onCport p g).mails = s.mails := rfl
@[simp] theorem State.onCport_starts (s : State) (p : Nat) (g : CellarPort → CellarPort) : (s.onCport p g).starts = s.starts := rfl
@[simp] theorem State.onCport_peers (s : State) (p : Nat) (g : CellarPort → CellarPort) : (s.onCport p g).peers = s.peers := rfl
@[simp] theorem State.onCport_lostDies (s : State) (p : Nat) (g : CellarPort → CellarPort) : (s.onCport p g).lostDies = s.lostDies := rfl
@[simp] theorem State.onCport_urgentFor (s : State) (p : Nat) (g : CellarPort → CellarPort) : (s.onCport p g).urgentFor = s.urgentFor := rfl
@[simp] theorem State.onCport_ctlErr (s : State) (p : Nat) (g : CellarPort → CellarPort) : (s.onCport p g).ctlErr = s.ctlErr := rfl
@[simp] theorem State.onCport_skipLast (s : State) (p : Nat) (g : CellarPort → CellarPort) : (s.onCport p g).skipLast = s.skipLast := rfl
@[simp] theorem State.onCport_skipTotal (s : State) (p : Nat) (g : CellarPort → CellarPort) : (s.onCport p g).skipTotal = s.skipTotal := rfl
@[simp] theorem State.onCport_groups (s : State) (p : Nat) (g : CellarPort → CellarPort) : (s.onCport p g).groups = s.groups := rfl
@[simp] theorem State.onCport_pending (s : State) (p : Nat) (g : CellarPort → CellarPort) : (s.onCport p g).pending = s.pending := rfl

/-! ### onSpan changes only `span` -/

@[simp] theorem State.onSpan_mem (s : State) (p : Nat) (f : Span → Span) : (s.onSpan p f).mem = s.mem := rfl
@[simp] theorem State.onSpan_now (s : State) (p : Nat) (f : Span → Span) : (s.onSpan p f).now = s.now := rfl
@[simp] theorem State.onSpan_free (s : State) (p : Nat) (f : Span → Span) : (s.onSpan p f).free = s.free := rfl
@[simp] theorem State.onSpan_build (s : State) (p : Nat) (f : Span → Span) : (s.onSpan p f).build = s.build := rfl
@[simp] theorem State.onSpan_grade (s : State) (p : Nat) (f : Span → Span) : (s.onSpan p f).grade = s.grade := rfl
@[simp] theorem State.onSpan_tiles (s : State) (p : Nat) (f : Span → Span) : (s.onSpan p f).tiles = s.tiles := rfl
@[simp] theorem State.onSpan_hw (s : State) (p : Nat) (f : Span → Span) : (s.onSpan p f).hw = s.hw := rfl
@[simp] theorem State.onSpan_clusters (s : State) (p : Nat) (f : Span → Span) : (s.onSpan p f).clusters = s.clusters := rfl
@[simp] theorem State.onSpan_shape (s : State) (p : Nat) (f : Span → Span) : (s.onSpan p f).shape = s.shape := rfl
@[simp] theorem State.onSpan_pendShape (s : State) (p : Nat) (f : Span → Span) : (s.onSpan p f).pendShape = s.pendShape := rfl
@[simp] theorem State.onSpan_report (s : State) (p : Nat) (f : Span → Span) : (s.onSpan p f).report = s.report := rfl
@[simp] theorem State.onSpan_ctxs (s : State) (p : Nat) (f : Span → Span) : (s.onSpan p f).ctxs = s.ctxs := rfl
@[simp] theorem State.onSpan_queues (s : State) (p : Nat) (f : Span → Span) : (s.onSpan p f).queues = s.queues := rfl
@[simp] theorem State.onSpan_objs (s : State) (p : Nat) (f : Span → Span) : (s.onSpan p f).objs = s.objs := rfl
@[simp] theorem State.onSpan_tasks (s : State) (p : Nat) (f : Span → Span) : (s.onSpan p f).tasks = s.tasks := rfl
@[simp] theorem State.onSpan_taskSeq (s : State) (p : Nat) (f : Span → Span) : (s.onSpan p f).taskSeq = s.taskSeq := rfl
@[simp] theorem State.onSpan_hbLimit (s : State) (p : Nat) (f : Span → Span) : (s.onSpan p f).hbLimit = s.hbLimit := rfl
@[simp] theorem State.onSpan_hbAt (s : State) (p : Nat) (f : Span → Span) : (s.onSpan p f).hbAt = s.hbAt := rfl
@[simp] theorem State.onSpan_expired (s : State) (p : Nat) (f : Span → Span) : (s.onSpan p f).expired = s.expired := rfl
@[simp] theorem State.onSpan_latch (s : State) (p : Nat) (f : Span → Span) : (s.onSpan p f).latch = s.latch := rfl
@[simp] theorem State.onSpan_scanCycles (s : State) (p : Nat) (f : Span → Span) : (s.onSpan p f).scanCycles = s.scanCycles := rfl
@[simp] theorem State.onSpan_scanQueue (s : State) (p : Nat) (f : Span → Span) : (s.onSpan p f).scanQueue = s.scanQueue := rfl
@[simp] theorem State.onSpan_scanSeq (s : State) (p : Nat) (f : Span → Span) : (s.onSpan p f).scanSeq = s.scanSeq := rfl
@[simp] theorem State.onSpan_scanAt (s : State) (p : Nat) (f : Span → Span) : (s.onSpan p f).scanAt = s.scanAt := rfl
@[simp] theorem State.onSpan_commits (s : State) (p : Nat) (f : Span → Span) : (s.onSpan p f).commits = s.commits := rfl
@[simp] theorem State.onSpan_fullSeen (s : State) (p : Nat) (f : Span → Span) : (s.onSpan p f).fullSeen = s.fullSeen := rfl
@[simp] theorem State.onSpan_redo (s : State) (p : Nat) (f : Span → Span) : (s.onSpan p f).redo = s.redo := rfl
@[simp] theorem State.onSpan_badCrc (s : State) (p : Nat) (f : Span → Span) : (s.onSpan p f).badCrc = s.badCrc := rfl
@[simp] theorem State.onSpan_rrQueue (s : State) (p : Nat) (f : Span → Span) : (s.onSpan p f).rrQueue = s.rrQueue := rfl
@[simp] theorem State.onSpan_front (s : State) (p : Nat) (f : Span → Span) : (s.onSpan p f).front = s.front := rfl
@[simp] theorem State.onSpan_wdLimit (s : State) (p : Nat) (f : Span → Span) : (s.onSpan p f).wdLimit = s.wdLimit := rfl
@[simp] theorem State.onSpan_cellarLimit (s : State) (p : Nat) (f : Span → Span) : (s.onSpan p f).cellarLimit = s.cellarLimit := rfl
@[simp] theorem State.onSpan_respLimit (s : State) (p : Nat) (f : Span → Span) : (s.onSpan p f).respLimit = s.respLimit := rfl
@[simp] theorem State.onSpan_cellar (s : State) (p : Nat) (f : Span → Span) : (s.onSpan p f).cellar = s.cellar := rfl
@[simp] theorem State.onSpan_cellarLost (s : State) (p : Nat) (f : Span → Span) : (s.onSpan p f).cellarLost = s.cellarLost := rfl
@[simp] theorem State.onSpan_lastGrant (s : State) (p : Nat) (f : Span → Span) : (s.onSpan p f).lastGrant = s.lastGrant := rfl
@[simp] theorem State.onSpan_attic (s : State) (p : Nat) (f : Span → Span) : (s.onSpan p f).attic = s.attic := rfl
@[simp] theorem State.onSpan_fabric (s : State) (p : Nat) (f : Span → Span) : (s.onSpan p f).fabric = s.fabric := rfl
@[simp] theorem State.onSpan_flops (s : State) (p : Nat) (f : Span → Span) : (s.onSpan p f).flops = s.flops := rfl
@[simp] theorem State.onSpan_start (s : State) (p : Nat) (f : Span → Span) : (s.onSpan p f).start = s.start := rfl
@[simp] theorem State.onSpan_cfg (s : State) (p : Nat) (f : Span → Span) : (s.onSpan p f).cfg = s.cfg := rfl
@[simp] theorem State.onSpan_reload (s : State) (p : Nat) (f : Span → Span) : (s.onSpan p f).reload = s.reload := rfl
@[simp] theorem State.onSpan_scrub (s : State) (p : Nat) (f : Span → Span) : (s.onSpan p f).scrub = s.scrub := rfl
@[simp] theorem State.onSpan_hard (s : State) (p : Nat) (f : Span → Span) : (s.onSpan p f).hard = s.hard := rfl
@[simp] theorem State.onSpan_faults (s : State) (p : Nat) (f : Span → Span) : (s.onSpan p f).faults = s.faults := rfl
@[simp] theorem State.onSpan_sec (s : State) (p : Nat) (f : Span → Span) : (s.onSpan p f).sec = s.sec := rfl
@[simp] theorem State.onSpan_power (s : State) (p : Nat) (f : Span → Span) : (s.onSpan p f).power = s.power := rfl
@[simp] theorem State.onSpan_seam (s : State) (p : Nat) (f : Span → Span) : (s.onSpan p f).seam = s.seam := rfl
@[simp] theorem State.onSpan_linkOut (s : State) (p : Nat) (f : Span → Span) : (s.onSpan p f).linkOut = s.linkOut := rfl
@[simp] theorem State.onSpan_linkReqs (s : State) (p : Nat) (f : Span → Span) : (s.onSpan p f).linkReqs = s.linkReqs := rfl
@[simp] theorem State.onSpan_served (s : State) (p : Nat) (f : Span → Span) : (s.onSpan p f).served = s.served := rfl
@[simp] theorem State.onSpan_mails (s : State) (p : Nat) (f : Span → Span) : (s.onSpan p f).mails = s.mails := rfl
@[simp] theorem State.onSpan_starts (s : State) (p : Nat) (f : Span → Span) : (s.onSpan p f).starts = s.starts := rfl
@[simp] theorem State.onSpan_peers (s : State) (p : Nat) (f : Span → Span) : (s.onSpan p f).peers = s.peers := rfl
@[simp] theorem State.onSpan_lostDies (s : State) (p : Nat) (f : Span → Span) : (s.onSpan p f).lostDies = s.lostDies := rfl
@[simp] theorem State.onSpan_urgentFor (s : State) (p : Nat) (f : Span → Span) : (s.onSpan p f).urgentFor = s.urgentFor := rfl
@[simp] theorem State.onSpan_ctlErr (s : State) (p : Nat) (f : Span → Span) : (s.onSpan p f).ctlErr = s.ctlErr := rfl
@[simp] theorem State.onSpan_skipLast (s : State) (p : Nat) (f : Span → Span) : (s.onSpan p f).skipLast = s.skipLast := rfl
@[simp] theorem State.onSpan_skipTotal (s : State) (p : Nat) (f : Span → Span) : (s.onSpan p f).skipTotal = s.skipTotal := rfl
@[simp] theorem State.onSpan_groups (s : State) (p : Nat) (f : Span → Span) : (s.onSpan p f).groups = s.groups := rfl
@[simp] theorem State.onSpan_pending (s : State) (p : Nat) (f : Span → Span) : (s.onSpan p f).pending = s.pending := rfl

/-! ### onSilicon changes only `hw` -/

@[simp] theorem State.onSilicon_mem (s : State) (k : Nat) (f : TileHw → TileHw) : (s.onSilicon k f).mem = s.mem := rfl
@[simp] theorem State.onSilicon_now (s : State) (k : Nat) (f : TileHw → TileHw) : (s.onSilicon k f).now = s.now := rfl
@[simp] theorem State.onSilicon_free (s : State) (k : Nat) (f : TileHw → TileHw) : (s.onSilicon k f).free = s.free := rfl
@[simp] theorem State.onSilicon_build (s : State) (k : Nat) (f : TileHw → TileHw) : (s.onSilicon k f).build = s.build := rfl
@[simp] theorem State.onSilicon_grade (s : State) (k : Nat) (f : TileHw → TileHw) : (s.onSilicon k f).grade = s.grade := rfl
@[simp] theorem State.onSilicon_tiles (s : State) (k : Nat) (f : TileHw → TileHw) : (s.onSilicon k f).tiles = s.tiles := rfl
@[simp] theorem State.onSilicon_clusters (s : State) (k : Nat) (f : TileHw → TileHw) : (s.onSilicon k f).clusters = s.clusters := rfl
@[simp] theorem State.onSilicon_shape (s : State) (k : Nat) (f : TileHw → TileHw) : (s.onSilicon k f).shape = s.shape := rfl
@[simp] theorem State.onSilicon_pendShape (s : State) (k : Nat) (f : TileHw → TileHw) : (s.onSilicon k f).pendShape = s.pendShape := rfl
@[simp] theorem State.onSilicon_report (s : State) (k : Nat) (f : TileHw → TileHw) : (s.onSilicon k f).report = s.report := rfl
@[simp] theorem State.onSilicon_ctxs (s : State) (k : Nat) (f : TileHw → TileHw) : (s.onSilicon k f).ctxs = s.ctxs := rfl
@[simp] theorem State.onSilicon_queues (s : State) (k : Nat) (f : TileHw → TileHw) : (s.onSilicon k f).queues = s.queues := rfl
@[simp] theorem State.onSilicon_objs (s : State) (k : Nat) (f : TileHw → TileHw) : (s.onSilicon k f).objs = s.objs := rfl
@[simp] theorem State.onSilicon_tasks (s : State) (k : Nat) (f : TileHw → TileHw) : (s.onSilicon k f).tasks = s.tasks := rfl
@[simp] theorem State.onSilicon_taskSeq (s : State) (k : Nat) (f : TileHw → TileHw) : (s.onSilicon k f).taskSeq = s.taskSeq := rfl
@[simp] theorem State.onSilicon_hbLimit (s : State) (k : Nat) (f : TileHw → TileHw) : (s.onSilicon k f).hbLimit = s.hbLimit := rfl
@[simp] theorem State.onSilicon_hbAt (s : State) (k : Nat) (f : TileHw → TileHw) : (s.onSilicon k f).hbAt = s.hbAt := rfl
@[simp] theorem State.onSilicon_expired (s : State) (k : Nat) (f : TileHw → TileHw) : (s.onSilicon k f).expired = s.expired := rfl
@[simp] theorem State.onSilicon_latch (s : State) (k : Nat) (f : TileHw → TileHw) : (s.onSilicon k f).latch = s.latch := rfl
@[simp] theorem State.onSilicon_scanCycles (s : State) (k : Nat) (f : TileHw → TileHw) : (s.onSilicon k f).scanCycles = s.scanCycles := rfl
@[simp] theorem State.onSilicon_scanQueue (s : State) (k : Nat) (f : TileHw → TileHw) : (s.onSilicon k f).scanQueue = s.scanQueue := rfl
@[simp] theorem State.onSilicon_scanSeq (s : State) (k : Nat) (f : TileHw → TileHw) : (s.onSilicon k f).scanSeq = s.scanSeq := rfl
@[simp] theorem State.onSilicon_scanAt (s : State) (k : Nat) (f : TileHw → TileHw) : (s.onSilicon k f).scanAt = s.scanAt := rfl
@[simp] theorem State.onSilicon_commits (s : State) (k : Nat) (f : TileHw → TileHw) : (s.onSilicon k f).commits = s.commits := rfl
@[simp] theorem State.onSilicon_fullSeen (s : State) (k : Nat) (f : TileHw → TileHw) : (s.onSilicon k f).fullSeen = s.fullSeen := rfl
@[simp] theorem State.onSilicon_redo (s : State) (k : Nat) (f : TileHw → TileHw) : (s.onSilicon k f).redo = s.redo := rfl
@[simp] theorem State.onSilicon_badCrc (s : State) (k : Nat) (f : TileHw → TileHw) : (s.onSilicon k f).badCrc = s.badCrc := rfl
@[simp] theorem State.onSilicon_rrQueue (s : State) (k : Nat) (f : TileHw → TileHw) : (s.onSilicon k f).rrQueue = s.rrQueue := rfl
@[simp] theorem State.onSilicon_front (s : State) (k : Nat) (f : TileHw → TileHw) : (s.onSilicon k f).front = s.front := rfl
@[simp] theorem State.onSilicon_wdLimit (s : State) (k : Nat) (f : TileHw → TileHw) : (s.onSilicon k f).wdLimit = s.wdLimit := rfl
@[simp] theorem State.onSilicon_cellarLimit (s : State) (k : Nat) (f : TileHw → TileHw) : (s.onSilicon k f).cellarLimit = s.cellarLimit := rfl
@[simp] theorem State.onSilicon_respLimit (s : State) (k : Nat) (f : TileHw → TileHw) : (s.onSilicon k f).respLimit = s.respLimit := rfl
@[simp] theorem State.onSilicon_cellar (s : State) (k : Nat) (f : TileHw → TileHw) : (s.onSilicon k f).cellar = s.cellar := rfl
@[simp] theorem State.onSilicon_cellarLost (s : State) (k : Nat) (f : TileHw → TileHw) : (s.onSilicon k f).cellarLost = s.cellarLost := rfl
@[simp] theorem State.onSilicon_lastGrant (s : State) (k : Nat) (f : TileHw → TileHw) : (s.onSilicon k f).lastGrant = s.lastGrant := rfl
@[simp] theorem State.onSilicon_attic (s : State) (k : Nat) (f : TileHw → TileHw) : (s.onSilicon k f).attic = s.attic := rfl
@[simp] theorem State.onSilicon_fabric (s : State) (k : Nat) (f : TileHw → TileHw) : (s.onSilicon k f).fabric = s.fabric := rfl
@[simp] theorem State.onSilicon_flops (s : State) (k : Nat) (f : TileHw → TileHw) : (s.onSilicon k f).flops = s.flops := rfl
@[simp] theorem State.onSilicon_start (s : State) (k : Nat) (f : TileHw → TileHw) : (s.onSilicon k f).start = s.start := rfl
@[simp] theorem State.onSilicon_cfg (s : State) (k : Nat) (f : TileHw → TileHw) : (s.onSilicon k f).cfg = s.cfg := rfl
@[simp] theorem State.onSilicon_reload (s : State) (k : Nat) (f : TileHw → TileHw) : (s.onSilicon k f).reload = s.reload := rfl
@[simp] theorem State.onSilicon_scrub (s : State) (k : Nat) (f : TileHw → TileHw) : (s.onSilicon k f).scrub = s.scrub := rfl
@[simp] theorem State.onSilicon_hard (s : State) (k : Nat) (f : TileHw → TileHw) : (s.onSilicon k f).hard = s.hard := rfl
@[simp] theorem State.onSilicon_faults (s : State) (k : Nat) (f : TileHw → TileHw) : (s.onSilicon k f).faults = s.faults := rfl
@[simp] theorem State.onSilicon_sec (s : State) (k : Nat) (f : TileHw → TileHw) : (s.onSilicon k f).sec = s.sec := rfl
@[simp] theorem State.onSilicon_power (s : State) (k : Nat) (f : TileHw → TileHw) : (s.onSilicon k f).power = s.power := rfl
@[simp] theorem State.onSilicon_span (s : State) (k : Nat) (f : TileHw → TileHw) : (s.onSilicon k f).span = s.span := rfl
@[simp] theorem State.onSilicon_seam (s : State) (k : Nat) (f : TileHw → TileHw) : (s.onSilicon k f).seam = s.seam := rfl
@[simp] theorem State.onSilicon_linkOut (s : State) (k : Nat) (f : TileHw → TileHw) : (s.onSilicon k f).linkOut = s.linkOut := rfl
@[simp] theorem State.onSilicon_linkReqs (s : State) (k : Nat) (f : TileHw → TileHw) : (s.onSilicon k f).linkReqs = s.linkReqs := rfl
@[simp] theorem State.onSilicon_served (s : State) (k : Nat) (f : TileHw → TileHw) : (s.onSilicon k f).served = s.served := rfl
@[simp] theorem State.onSilicon_mails (s : State) (k : Nat) (f : TileHw → TileHw) : (s.onSilicon k f).mails = s.mails := rfl
@[simp] theorem State.onSilicon_starts (s : State) (k : Nat) (f : TileHw → TileHw) : (s.onSilicon k f).starts = s.starts := rfl
@[simp] theorem State.onSilicon_peers (s : State) (k : Nat) (f : TileHw → TileHw) : (s.onSilicon k f).peers = s.peers := rfl
@[simp] theorem State.onSilicon_lostDies (s : State) (k : Nat) (f : TileHw → TileHw) : (s.onSilicon k f).lostDies = s.lostDies := rfl
@[simp] theorem State.onSilicon_urgentFor (s : State) (k : Nat) (f : TileHw → TileHw) : (s.onSilicon k f).urgentFor = s.urgentFor := rfl
@[simp] theorem State.onSilicon_ctlErr (s : State) (k : Nat) (f : TileHw → TileHw) : (s.onSilicon k f).ctlErr = s.ctlErr := rfl
@[simp] theorem State.onSilicon_skipLast (s : State) (k : Nat) (f : TileHw → TileHw) : (s.onSilicon k f).skipLast = s.skipLast := rfl
@[simp] theorem State.onSilicon_skipTotal (s : State) (k : Nat) (f : TileHw → TileHw) : (s.onSilicon k f).skipTotal = s.skipTotal := rfl
@[simp] theorem State.onSilicon_groups (s : State) (k : Nat) (f : TileHw → TileHw) : (s.onSilicon k f).groups = s.groups := rfl
@[simp] theorem State.onSilicon_pending (s : State) (k : Nat) (f : TileHw → TileHw) : (s.onSilicon k f).pending = s.pending := rfl

/-! ### putNat changes only `mem` -/

@[simp] theorem State.putNat_now (s : State) (a n x : Nat) : (s.putNat a n x).now = s.now := rfl
@[simp] theorem State.putNat_free (s : State) (a n x : Nat) : (s.putNat a n x).free = s.free := rfl
@[simp] theorem State.putNat_build (s : State) (a n x : Nat) : (s.putNat a n x).build = s.build := rfl
@[simp] theorem State.putNat_grade (s : State) (a n x : Nat) : (s.putNat a n x).grade = s.grade := rfl
@[simp] theorem State.putNat_tiles (s : State) (a n x : Nat) : (s.putNat a n x).tiles = s.tiles := rfl
@[simp] theorem State.putNat_hw (s : State) (a n x : Nat) : (s.putNat a n x).hw = s.hw := rfl
@[simp] theorem State.putNat_clusters (s : State) (a n x : Nat) : (s.putNat a n x).clusters = s.clusters := rfl
@[simp] theorem State.putNat_shape (s : State) (a n x : Nat) : (s.putNat a n x).shape = s.shape := rfl
@[simp] theorem State.putNat_pendShape (s : State) (a n x : Nat) : (s.putNat a n x).pendShape = s.pendShape := rfl
@[simp] theorem State.putNat_report (s : State) (a n x : Nat) : (s.putNat a n x).report = s.report := rfl
@[simp] theorem State.putNat_ctxs (s : State) (a n x : Nat) : (s.putNat a n x).ctxs = s.ctxs := rfl
@[simp] theorem State.putNat_queues (s : State) (a n x : Nat) : (s.putNat a n x).queues = s.queues := rfl
@[simp] theorem State.putNat_objs (s : State) (a n x : Nat) : (s.putNat a n x).objs = s.objs := rfl
@[simp] theorem State.putNat_tasks (s : State) (a n x : Nat) : (s.putNat a n x).tasks = s.tasks := rfl
@[simp] theorem State.putNat_taskSeq (s : State) (a n x : Nat) : (s.putNat a n x).taskSeq = s.taskSeq := rfl
@[simp] theorem State.putNat_hbLimit (s : State) (a n x : Nat) : (s.putNat a n x).hbLimit = s.hbLimit := rfl
@[simp] theorem State.putNat_hbAt (s : State) (a n x : Nat) : (s.putNat a n x).hbAt = s.hbAt := rfl
@[simp] theorem State.putNat_expired (s : State) (a n x : Nat) : (s.putNat a n x).expired = s.expired := rfl
@[simp] theorem State.putNat_latch (s : State) (a n x : Nat) : (s.putNat a n x).latch = s.latch := rfl
@[simp] theorem State.putNat_scanCycles (s : State) (a n x : Nat) : (s.putNat a n x).scanCycles = s.scanCycles := rfl
@[simp] theorem State.putNat_scanQueue (s : State) (a n x : Nat) : (s.putNat a n x).scanQueue = s.scanQueue := rfl
@[simp] theorem State.putNat_scanSeq (s : State) (a n x : Nat) : (s.putNat a n x).scanSeq = s.scanSeq := rfl
@[simp] theorem State.putNat_scanAt (s : State) (a n x : Nat) : (s.putNat a n x).scanAt = s.scanAt := rfl
@[simp] theorem State.putNat_commits (s : State) (a n x : Nat) : (s.putNat a n x).commits = s.commits := rfl
@[simp] theorem State.putNat_fullSeen (s : State) (a n x : Nat) : (s.putNat a n x).fullSeen = s.fullSeen := rfl
@[simp] theorem State.putNat_redo (s : State) (a n x : Nat) : (s.putNat a n x).redo = s.redo := rfl
@[simp] theorem State.putNat_badCrc (s : State) (a n x : Nat) : (s.putNat a n x).badCrc = s.badCrc := rfl
@[simp] theorem State.putNat_rrQueue (s : State) (a n x : Nat) : (s.putNat a n x).rrQueue = s.rrQueue := rfl
@[simp] theorem State.putNat_front (s : State) (a n x : Nat) : (s.putNat a n x).front = s.front := rfl
@[simp] theorem State.putNat_wdLimit (s : State) (a n x : Nat) : (s.putNat a n x).wdLimit = s.wdLimit := rfl
@[simp] theorem State.putNat_cellarLimit (s : State) (a n x : Nat) : (s.putNat a n x).cellarLimit = s.cellarLimit := rfl
@[simp] theorem State.putNat_respLimit (s : State) (a n x : Nat) : (s.putNat a n x).respLimit = s.respLimit := rfl
@[simp] theorem State.putNat_cellar (s : State) (a n x : Nat) : (s.putNat a n x).cellar = s.cellar := rfl
@[simp] theorem State.putNat_cellarLost (s : State) (a n x : Nat) : (s.putNat a n x).cellarLost = s.cellarLost := rfl
@[simp] theorem State.putNat_lastGrant (s : State) (a n x : Nat) : (s.putNat a n x).lastGrant = s.lastGrant := rfl
@[simp] theorem State.putNat_attic (s : State) (a n x : Nat) : (s.putNat a n x).attic = s.attic := rfl
@[simp] theorem State.putNat_fabric (s : State) (a n x : Nat) : (s.putNat a n x).fabric = s.fabric := rfl
@[simp] theorem State.putNat_flops (s : State) (a n x : Nat) : (s.putNat a n x).flops = s.flops := rfl
@[simp] theorem State.putNat_start (s : State) (a n x : Nat) : (s.putNat a n x).start = s.start := rfl
@[simp] theorem State.putNat_cfg (s : State) (a n x : Nat) : (s.putNat a n x).cfg = s.cfg := rfl
@[simp] theorem State.putNat_reload (s : State) (a n x : Nat) : (s.putNat a n x).reload = s.reload := rfl
@[simp] theorem State.putNat_scrub (s : State) (a n x : Nat) : (s.putNat a n x).scrub = s.scrub := rfl
@[simp] theorem State.putNat_hard (s : State) (a n x : Nat) : (s.putNat a n x).hard = s.hard := rfl
@[simp] theorem State.putNat_faults (s : State) (a n x : Nat) : (s.putNat a n x).faults = s.faults := rfl
@[simp] theorem State.putNat_sec (s : State) (a n x : Nat) : (s.putNat a n x).sec = s.sec := rfl
@[simp] theorem State.putNat_power (s : State) (a n x : Nat) : (s.putNat a n x).power = s.power := rfl
@[simp] theorem State.putNat_span (s : State) (a n x : Nat) : (s.putNat a n x).span = s.span := rfl
@[simp] theorem State.putNat_seam (s : State) (a n x : Nat) : (s.putNat a n x).seam = s.seam := rfl
@[simp] theorem State.putNat_linkOut (s : State) (a n x : Nat) : (s.putNat a n x).linkOut = s.linkOut := rfl
@[simp] theorem State.putNat_linkReqs (s : State) (a n x : Nat) : (s.putNat a n x).linkReqs = s.linkReqs := rfl
@[simp] theorem State.putNat_served (s : State) (a n x : Nat) : (s.putNat a n x).served = s.served := rfl
@[simp] theorem State.putNat_mails (s : State) (a n x : Nat) : (s.putNat a n x).mails = s.mails := rfl
@[simp] theorem State.putNat_starts (s : State) (a n x : Nat) : (s.putNat a n x).starts = s.starts := rfl
@[simp] theorem State.putNat_peers (s : State) (a n x : Nat) : (s.putNat a n x).peers = s.peers := rfl
@[simp] theorem State.putNat_lostDies (s : State) (a n x : Nat) : (s.putNat a n x).lostDies = s.lostDies := rfl
@[simp] theorem State.putNat_urgentFor (s : State) (a n x : Nat) : (s.putNat a n x).urgentFor = s.urgentFor := rfl
@[simp] theorem State.putNat_ctlErr (s : State) (a n x : Nat) : (s.putNat a n x).ctlErr = s.ctlErr := rfl
@[simp] theorem State.putNat_skipLast (s : State) (a n x : Nat) : (s.putNat a n x).skipLast = s.skipLast := rfl
@[simp] theorem State.putNat_skipTotal (s : State) (a n x : Nat) : (s.putNat a n x).skipTotal = s.skipTotal := rfl
@[simp] theorem State.putNat_groups (s : State) (a n x : Nat) : (s.putNat a n x).groups = s.groups := rfl
@[simp] theorem State.putNat_pending (s : State) (a n x : Nat) : (s.putNat a n x).pending = s.pending := rfl

/-! ### putBytes changes only `mem` -/

@[simp] theorem State.putBytes_now (s : State) (a : Nat) (bs : List Byte) : (s.putBytes a bs).now = s.now := rfl
@[simp] theorem State.putBytes_free (s : State) (a : Nat) (bs : List Byte) : (s.putBytes a bs).free = s.free := rfl
@[simp] theorem State.putBytes_build (s : State) (a : Nat) (bs : List Byte) : (s.putBytes a bs).build = s.build := rfl
@[simp] theorem State.putBytes_grade (s : State) (a : Nat) (bs : List Byte) : (s.putBytes a bs).grade = s.grade := rfl
@[simp] theorem State.putBytes_tiles (s : State) (a : Nat) (bs : List Byte) : (s.putBytes a bs).tiles = s.tiles := rfl
@[simp] theorem State.putBytes_hw (s : State) (a : Nat) (bs : List Byte) : (s.putBytes a bs).hw = s.hw := rfl
@[simp] theorem State.putBytes_clusters (s : State) (a : Nat) (bs : List Byte) : (s.putBytes a bs).clusters = s.clusters := rfl
@[simp] theorem State.putBytes_shape (s : State) (a : Nat) (bs : List Byte) : (s.putBytes a bs).shape = s.shape := rfl
@[simp] theorem State.putBytes_pendShape (s : State) (a : Nat) (bs : List Byte) : (s.putBytes a bs).pendShape = s.pendShape := rfl
@[simp] theorem State.putBytes_report (s : State) (a : Nat) (bs : List Byte) : (s.putBytes a bs).report = s.report := rfl
@[simp] theorem State.putBytes_ctxs (s : State) (a : Nat) (bs : List Byte) : (s.putBytes a bs).ctxs = s.ctxs := rfl
@[simp] theorem State.putBytes_queues (s : State) (a : Nat) (bs : List Byte) : (s.putBytes a bs).queues = s.queues := rfl
@[simp] theorem State.putBytes_objs (s : State) (a : Nat) (bs : List Byte) : (s.putBytes a bs).objs = s.objs := rfl
@[simp] theorem State.putBytes_tasks (s : State) (a : Nat) (bs : List Byte) : (s.putBytes a bs).tasks = s.tasks := rfl
@[simp] theorem State.putBytes_taskSeq (s : State) (a : Nat) (bs : List Byte) : (s.putBytes a bs).taskSeq = s.taskSeq := rfl
@[simp] theorem State.putBytes_hbLimit (s : State) (a : Nat) (bs : List Byte) : (s.putBytes a bs).hbLimit = s.hbLimit := rfl
@[simp] theorem State.putBytes_hbAt (s : State) (a : Nat) (bs : List Byte) : (s.putBytes a bs).hbAt = s.hbAt := rfl
@[simp] theorem State.putBytes_expired (s : State) (a : Nat) (bs : List Byte) : (s.putBytes a bs).expired = s.expired := rfl
@[simp] theorem State.putBytes_latch (s : State) (a : Nat) (bs : List Byte) : (s.putBytes a bs).latch = s.latch := rfl
@[simp] theorem State.putBytes_scanCycles (s : State) (a : Nat) (bs : List Byte) : (s.putBytes a bs).scanCycles = s.scanCycles := rfl
@[simp] theorem State.putBytes_scanQueue (s : State) (a : Nat) (bs : List Byte) : (s.putBytes a bs).scanQueue = s.scanQueue := rfl
@[simp] theorem State.putBytes_scanSeq (s : State) (a : Nat) (bs : List Byte) : (s.putBytes a bs).scanSeq = s.scanSeq := rfl
@[simp] theorem State.putBytes_scanAt (s : State) (a : Nat) (bs : List Byte) : (s.putBytes a bs).scanAt = s.scanAt := rfl
@[simp] theorem State.putBytes_commits (s : State) (a : Nat) (bs : List Byte) : (s.putBytes a bs).commits = s.commits := rfl
@[simp] theorem State.putBytes_fullSeen (s : State) (a : Nat) (bs : List Byte) : (s.putBytes a bs).fullSeen = s.fullSeen := rfl
@[simp] theorem State.putBytes_redo (s : State) (a : Nat) (bs : List Byte) : (s.putBytes a bs).redo = s.redo := rfl
@[simp] theorem State.putBytes_badCrc (s : State) (a : Nat) (bs : List Byte) : (s.putBytes a bs).badCrc = s.badCrc := rfl
@[simp] theorem State.putBytes_rrQueue (s : State) (a : Nat) (bs : List Byte) : (s.putBytes a bs).rrQueue = s.rrQueue := rfl
@[simp] theorem State.putBytes_front (s : State) (a : Nat) (bs : List Byte) : (s.putBytes a bs).front = s.front := rfl
@[simp] theorem State.putBytes_wdLimit (s : State) (a : Nat) (bs : List Byte) : (s.putBytes a bs).wdLimit = s.wdLimit := rfl
@[simp] theorem State.putBytes_cellarLimit (s : State) (a : Nat) (bs : List Byte) : (s.putBytes a bs).cellarLimit = s.cellarLimit := rfl
@[simp] theorem State.putBytes_respLimit (s : State) (a : Nat) (bs : List Byte) : (s.putBytes a bs).respLimit = s.respLimit := rfl
@[simp] theorem State.putBytes_cellar (s : State) (a : Nat) (bs : List Byte) : (s.putBytes a bs).cellar = s.cellar := rfl
@[simp] theorem State.putBytes_cellarLost (s : State) (a : Nat) (bs : List Byte) : (s.putBytes a bs).cellarLost = s.cellarLost := rfl
@[simp] theorem State.putBytes_lastGrant (s : State) (a : Nat) (bs : List Byte) : (s.putBytes a bs).lastGrant = s.lastGrant := rfl
@[simp] theorem State.putBytes_attic (s : State) (a : Nat) (bs : List Byte) : (s.putBytes a bs).attic = s.attic := rfl
@[simp] theorem State.putBytes_fabric (s : State) (a : Nat) (bs : List Byte) : (s.putBytes a bs).fabric = s.fabric := rfl
@[simp] theorem State.putBytes_flops (s : State) (a : Nat) (bs : List Byte) : (s.putBytes a bs).flops = s.flops := rfl
@[simp] theorem State.putBytes_start (s : State) (a : Nat) (bs : List Byte) : (s.putBytes a bs).start = s.start := rfl
@[simp] theorem State.putBytes_cfg (s : State) (a : Nat) (bs : List Byte) : (s.putBytes a bs).cfg = s.cfg := rfl
@[simp] theorem State.putBytes_reload (s : State) (a : Nat) (bs : List Byte) : (s.putBytes a bs).reload = s.reload := rfl
@[simp] theorem State.putBytes_scrub (s : State) (a : Nat) (bs : List Byte) : (s.putBytes a bs).scrub = s.scrub := rfl
@[simp] theorem State.putBytes_hard (s : State) (a : Nat) (bs : List Byte) : (s.putBytes a bs).hard = s.hard := rfl
@[simp] theorem State.putBytes_faults (s : State) (a : Nat) (bs : List Byte) : (s.putBytes a bs).faults = s.faults := rfl
@[simp] theorem State.putBytes_sec (s : State) (a : Nat) (bs : List Byte) : (s.putBytes a bs).sec = s.sec := rfl
@[simp] theorem State.putBytes_power (s : State) (a : Nat) (bs : List Byte) : (s.putBytes a bs).power = s.power := rfl
@[simp] theorem State.putBytes_span (s : State) (a : Nat) (bs : List Byte) : (s.putBytes a bs).span = s.span := rfl
@[simp] theorem State.putBytes_seam (s : State) (a : Nat) (bs : List Byte) : (s.putBytes a bs).seam = s.seam := rfl
@[simp] theorem State.putBytes_linkOut (s : State) (a : Nat) (bs : List Byte) : (s.putBytes a bs).linkOut = s.linkOut := rfl
@[simp] theorem State.putBytes_linkReqs (s : State) (a : Nat) (bs : List Byte) : (s.putBytes a bs).linkReqs = s.linkReqs := rfl
@[simp] theorem State.putBytes_served (s : State) (a : Nat) (bs : List Byte) : (s.putBytes a bs).served = s.served := rfl
@[simp] theorem State.putBytes_mails (s : State) (a : Nat) (bs : List Byte) : (s.putBytes a bs).mails = s.mails := rfl
@[simp] theorem State.putBytes_starts (s : State) (a : Nat) (bs : List Byte) : (s.putBytes a bs).starts = s.starts := rfl
@[simp] theorem State.putBytes_peers (s : State) (a : Nat) (bs : List Byte) : (s.putBytes a bs).peers = s.peers := rfl
@[simp] theorem State.putBytes_lostDies (s : State) (a : Nat) (bs : List Byte) : (s.putBytes a bs).lostDies = s.lostDies := rfl
@[simp] theorem State.putBytes_urgentFor (s : State) (a : Nat) (bs : List Byte) : (s.putBytes a bs).urgentFor = s.urgentFor := rfl
@[simp] theorem State.putBytes_ctlErr (s : State) (a : Nat) (bs : List Byte) : (s.putBytes a bs).ctlErr = s.ctlErr := rfl
@[simp] theorem State.putBytes_skipLast (s : State) (a : Nat) (bs : List Byte) : (s.putBytes a bs).skipLast = s.skipLast := rfl
@[simp] theorem State.putBytes_skipTotal (s : State) (a : Nat) (bs : List Byte) : (s.putBytes a bs).skipTotal = s.skipTotal := rfl
@[simp] theorem State.putBytes_groups (s : State) (a : Nat) (bs : List Byte) : (s.putBytes a bs).groups = s.groups := rfl
@[simp] theorem State.putBytes_pending (s : State) (a : Nat) (bs : List Byte) : (s.putBytes a bs).pending = s.pending := rfl

/-! ### clear changes only `mem` -/

@[simp] theorem State.clear_now (s : State) (lo n : Nat) : (s.clear lo n).now = s.now := rfl
@[simp] theorem State.clear_free (s : State) (lo n : Nat) : (s.clear lo n).free = s.free := rfl
@[simp] theorem State.clear_build (s : State) (lo n : Nat) : (s.clear lo n).build = s.build := rfl
@[simp] theorem State.clear_grade (s : State) (lo n : Nat) : (s.clear lo n).grade = s.grade := rfl
@[simp] theorem State.clear_tiles (s : State) (lo n : Nat) : (s.clear lo n).tiles = s.tiles := rfl
@[simp] theorem State.clear_hw (s : State) (lo n : Nat) : (s.clear lo n).hw = s.hw := rfl
@[simp] theorem State.clear_clusters (s : State) (lo n : Nat) : (s.clear lo n).clusters = s.clusters := rfl
@[simp] theorem State.clear_shape (s : State) (lo n : Nat) : (s.clear lo n).shape = s.shape := rfl
@[simp] theorem State.clear_pendShape (s : State) (lo n : Nat) : (s.clear lo n).pendShape = s.pendShape := rfl
@[simp] theorem State.clear_report (s : State) (lo n : Nat) : (s.clear lo n).report = s.report := rfl
@[simp] theorem State.clear_ctxs (s : State) (lo n : Nat) : (s.clear lo n).ctxs = s.ctxs := rfl
@[simp] theorem State.clear_queues (s : State) (lo n : Nat) : (s.clear lo n).queues = s.queues := rfl
@[simp] theorem State.clear_objs (s : State) (lo n : Nat) : (s.clear lo n).objs = s.objs := rfl
@[simp] theorem State.clear_tasks (s : State) (lo n : Nat) : (s.clear lo n).tasks = s.tasks := rfl
@[simp] theorem State.clear_taskSeq (s : State) (lo n : Nat) : (s.clear lo n).taskSeq = s.taskSeq := rfl
@[simp] theorem State.clear_hbLimit (s : State) (lo n : Nat) : (s.clear lo n).hbLimit = s.hbLimit := rfl
@[simp] theorem State.clear_hbAt (s : State) (lo n : Nat) : (s.clear lo n).hbAt = s.hbAt := rfl
@[simp] theorem State.clear_expired (s : State) (lo n : Nat) : (s.clear lo n).expired = s.expired := rfl
@[simp] theorem State.clear_latch (s : State) (lo n : Nat) : (s.clear lo n).latch = s.latch := rfl
@[simp] theorem State.clear_scanCycles (s : State) (lo n : Nat) : (s.clear lo n).scanCycles = s.scanCycles := rfl
@[simp] theorem State.clear_scanQueue (s : State) (lo n : Nat) : (s.clear lo n).scanQueue = s.scanQueue := rfl
@[simp] theorem State.clear_scanSeq (s : State) (lo n : Nat) : (s.clear lo n).scanSeq = s.scanSeq := rfl
@[simp] theorem State.clear_scanAt (s : State) (lo n : Nat) : (s.clear lo n).scanAt = s.scanAt := rfl
@[simp] theorem State.clear_commits (s : State) (lo n : Nat) : (s.clear lo n).commits = s.commits := rfl
@[simp] theorem State.clear_fullSeen (s : State) (lo n : Nat) : (s.clear lo n).fullSeen = s.fullSeen := rfl
@[simp] theorem State.clear_redo (s : State) (lo n : Nat) : (s.clear lo n).redo = s.redo := rfl
@[simp] theorem State.clear_badCrc (s : State) (lo n : Nat) : (s.clear lo n).badCrc = s.badCrc := rfl
@[simp] theorem State.clear_rrQueue (s : State) (lo n : Nat) : (s.clear lo n).rrQueue = s.rrQueue := rfl
@[simp] theorem State.clear_front (s : State) (lo n : Nat) : (s.clear lo n).front = s.front := rfl
@[simp] theorem State.clear_wdLimit (s : State) (lo n : Nat) : (s.clear lo n).wdLimit = s.wdLimit := rfl
@[simp] theorem State.clear_cellarLimit (s : State) (lo n : Nat) : (s.clear lo n).cellarLimit = s.cellarLimit := rfl
@[simp] theorem State.clear_respLimit (s : State) (lo n : Nat) : (s.clear lo n).respLimit = s.respLimit := rfl
@[simp] theorem State.clear_cellar (s : State) (lo n : Nat) : (s.clear lo n).cellar = s.cellar := rfl
@[simp] theorem State.clear_cellarLost (s : State) (lo n : Nat) : (s.clear lo n).cellarLost = s.cellarLost := rfl
@[simp] theorem State.clear_lastGrant (s : State) (lo n : Nat) : (s.clear lo n).lastGrant = s.lastGrant := rfl
@[simp] theorem State.clear_attic (s : State) (lo n : Nat) : (s.clear lo n).attic = s.attic := rfl
@[simp] theorem State.clear_fabric (s : State) (lo n : Nat) : (s.clear lo n).fabric = s.fabric := rfl
@[simp] theorem State.clear_flops (s : State) (lo n : Nat) : (s.clear lo n).flops = s.flops := rfl
@[simp] theorem State.clear_start (s : State) (lo n : Nat) : (s.clear lo n).start = s.start := rfl
@[simp] theorem State.clear_cfg (s : State) (lo n : Nat) : (s.clear lo n).cfg = s.cfg := rfl
@[simp] theorem State.clear_reload (s : State) (lo n : Nat) : (s.clear lo n).reload = s.reload := rfl
@[simp] theorem State.clear_scrub (s : State) (lo n : Nat) : (s.clear lo n).scrub = s.scrub := rfl
@[simp] theorem State.clear_hard (s : State) (lo n : Nat) : (s.clear lo n).hard = s.hard := rfl
@[simp] theorem State.clear_faults (s : State) (lo n : Nat) : (s.clear lo n).faults = s.faults := rfl
@[simp] theorem State.clear_sec (s : State) (lo n : Nat) : (s.clear lo n).sec = s.sec := rfl
@[simp] theorem State.clear_power (s : State) (lo n : Nat) : (s.clear lo n).power = s.power := rfl
@[simp] theorem State.clear_span (s : State) (lo n : Nat) : (s.clear lo n).span = s.span := rfl
@[simp] theorem State.clear_seam (s : State) (lo n : Nat) : (s.clear lo n).seam = s.seam := rfl
@[simp] theorem State.clear_linkOut (s : State) (lo n : Nat) : (s.clear lo n).linkOut = s.linkOut := rfl
@[simp] theorem State.clear_linkReqs (s : State) (lo n : Nat) : (s.clear lo n).linkReqs = s.linkReqs := rfl
@[simp] theorem State.clear_served (s : State) (lo n : Nat) : (s.clear lo n).served = s.served := rfl
@[simp] theorem State.clear_mails (s : State) (lo n : Nat) : (s.clear lo n).mails = s.mails := rfl
@[simp] theorem State.clear_starts (s : State) (lo n : Nat) : (s.clear lo n).starts = s.starts := rfl
@[simp] theorem State.clear_peers (s : State) (lo n : Nat) : (s.clear lo n).peers = s.peers := rfl
@[simp] theorem State.clear_lostDies (s : State) (lo n : Nat) : (s.clear lo n).lostDies = s.lostDies := rfl
@[simp] theorem State.clear_urgentFor (s : State) (lo n : Nat) : (s.clear lo n).urgentFor = s.urgentFor := rfl
@[simp] theorem State.clear_ctlErr (s : State) (lo n : Nat) : (s.clear lo n).ctlErr = s.ctlErr := rfl
@[simp] theorem State.clear_skipLast (s : State) (lo n : Nat) : (s.clear lo n).skipLast = s.skipLast := rfl
@[simp] theorem State.clear_skipTotal (s : State) (lo n : Nat) : (s.clear lo n).skipTotal = s.skipTotal := rfl
@[simp] theorem State.clear_groups (s : State) (lo n : Nat) : (s.clear lo n).groups = s.groups := rfl
@[simp] theorem State.clear_pending (s : State) (lo n : Nat) : (s.clear lo n).pending = s.pending := rfl

/-! ### What accessors read after an update of another table -/

@[simp] theorem State.setTile_cluster_other (s : State) (c t : Nat) (x : Tile) (d : Nat) : (s.setTile c t x).cluster d = s.cluster d := rfl
@[simp] theorem State.setTile_silicon_other (s : State) (c t : Nat) (x : Tile) (d : Nat) : (s.setTile c t x).silicon d = s.silicon d := rfl
@[simp] theorem State.setTile_ctx_other (s : State) (c t : Nat) (x : Tile) (d : Nat) : (s.setTile c t x).ctx d = s.ctx d := rfl
@[simp] theorem State.setTile_queue_other (s : State) (c t : Nat) (x : Tile) (d : Nat) : (s.setTile c t x).queue d = s.queue d := rfl
@[simp] theorem State.setTile_obj_other (s : State) (c t : Nat) (x : Tile) (d : Nat) : (s.setTile c t x).obj d = s.obj d := rfl
@[simp] theorem State.setTile_task__other (s : State) (c t : Nat) (x : Tile) (d : Nat) : (s.setTile c t x).task? d = s.task? d := rfl
@[simp] theorem State.setTile_port_other (s : State) (c t : Nat) (x : Tile) (d : Nat) : (s.setTile c t x).port d = s.port d := rfl
@[simp] theorem State.setTile_cport_other (s : State) (c t : Nat) (x : Tile) (d : Nat) : (s.setTile c t x).cport d = s.cport d := rfl
@[simp] theorem State.setTile_spanOf_other (s : State) (c t : Nat) (x : Tile) (d : Nat) : (s.setTile c t x).spanOf d = s.spanOf d := rfl
@[simp] theorem State.setTile_tileKey_other (s : State) (c t : Nat) (x : Tile) (d e : Nat) : (s.setTile c t x).tileKey d e = s.tileKey d e := rfl
@[simp] theorem State.setTile_tpc_other (s : State) (c t : Nat) (x : Tile) : (s.setTile c t x).tpc = s.tpc := rfl
@[simp] theorem State.setTile_regions_other (s : State) (c t : Nat) (x : Tile) : (s.setTile c t x).regions = s.regions := rfl
@[simp] theorem State.setTile_die_other (s : State) (c t : Nat) (x : Tile) : (s.setTile c t x).die = s.die := rfl
@[simp] theorem State.setTile_shelfSize_other (s : State) (c t : Nat) (x : Tile) : (s.setTile c t x).shelfSize = s.shelfSize := rfl
@[simp] theorem State.setTile_larderSize_other (s : State) (c t : Nat) (x : Tile) : (s.setTile c t x).larderSize = s.larderSize := rfl
@[simp] theorem State.setCluster_silicon_other (s : State) (c : Nat) (x : Cluster) (d : Nat) : (s.setCluster c x).silicon d = s.silicon d := rfl
@[simp] theorem State.setCluster_ctx_other (s : State) (c : Nat) (x : Cluster) (d : Nat) : (s.setCluster c x).ctx d = s.ctx d := rfl
@[simp] theorem State.setCluster_queue_other (s : State) (c : Nat) (x : Cluster) (d : Nat) : (s.setCluster c x).queue d = s.queue d := rfl
@[simp] theorem State.setCluster_obj_other (s : State) (c : Nat) (x : Cluster) (d : Nat) : (s.setCluster c x).obj d = s.obj d := rfl
@[simp] theorem State.setCluster_task__other (s : State) (c : Nat) (x : Cluster) (d : Nat) : (s.setCluster c x).task? d = s.task? d := rfl
@[simp] theorem State.setCluster_port_other (s : State) (c : Nat) (x : Cluster) (d : Nat) : (s.setCluster c x).port d = s.port d := rfl
@[simp] theorem State.setCluster_cport_other (s : State) (c : Nat) (x : Cluster) (d : Nat) : (s.setCluster c x).cport d = s.cport d := rfl
@[simp] theorem State.setCluster_spanOf_other (s : State) (c : Nat) (x : Cluster) (d : Nat) : (s.setCluster c x).spanOf d = s.spanOf d := rfl
@[simp] theorem State.setCluster_tpc_other (s : State) (c : Nat) (x : Cluster) : (s.setCluster c x).tpc = s.tpc := rfl
@[simp] theorem State.setCluster_regions_other (s : State) (c : Nat) (x : Cluster) : (s.setCluster c x).regions = s.regions := rfl
@[simp] theorem State.setCluster_die_other (s : State) (c : Nat) (x : Cluster) : (s.setCluster c x).die = s.die := rfl
@[simp] theorem State.setCluster_shelfSize_other (s : State) (c : Nat) (x : Cluster) : (s.setCluster c x).shelfSize = s.shelfSize := rfl
@[simp] theorem State.setCluster_larderSize_other (s : State) (c : Nat) (x : Cluster) : (s.setCluster c x).larderSize = s.larderSize := rfl
@[simp] theorem State.setTask_cluster_other (s : State) (k : Nat) (t : Task) (d : Nat) : (s.setTask k t).cluster d = s.cluster d := rfl
@[simp] theorem State.setTask_silicon_other (s : State) (k : Nat) (t : Task) (d : Nat) : (s.setTask k t).silicon d = s.silicon d := rfl
@[simp] theorem State.setTask_ctx_other (s : State) (k : Nat) (t : Task) (d : Nat) : (s.setTask k t).ctx d = s.ctx d := rfl
@[simp] theorem State.setTask_queue_other (s : State) (k : Nat) (t : Task) (d : Nat) : (s.setTask k t).queue d = s.queue d := rfl
@[simp] theorem State.setTask_obj_other (s : State) (k : Nat) (t : Task) (d : Nat) : (s.setTask k t).obj d = s.obj d := rfl
@[simp] theorem State.setTask_port_other (s : State) (k : Nat) (t : Task) (d : Nat) : (s.setTask k t).port d = s.port d := rfl
@[simp] theorem State.setTask_cport_other (s : State) (k : Nat) (t : Task) (d : Nat) : (s.setTask k t).cport d = s.cport d := rfl
@[simp] theorem State.setTask_spanOf_other (s : State) (k : Nat) (t : Task) (d : Nat) : (s.setTask k t).spanOf d = s.spanOf d := rfl
@[simp] theorem State.setTask_tileKey_other (s : State) (k : Nat) (t : Task) (d e : Nat) : (s.setTask k t).tileKey d e = s.tileKey d e := rfl
@[simp] theorem State.setTask_tile_other (s : State) (k : Nat) (t : Task) (d e : Nat) : (s.setTask k t).tile d e = s.tile d e := rfl
@[simp] theorem State.setTask_tpc_other (s : State) (k : Nat) (t : Task) : (s.setTask k t).tpc = s.tpc := rfl
@[simp] theorem State.setTask_regions_other (s : State) (k : Nat) (t : Task) : (s.setTask k t).regions = s.regions := rfl
@[simp] theorem State.setTask_die_other (s : State) (k : Nat) (t : Task) : (s.setTask k t).die = s.die := rfl
@[simp] theorem State.setTask_shelfSize_other (s : State) (k : Nat) (t : Task) : (s.setTask k t).shelfSize = s.shelfSize := rfl
@[simp] theorem State.setTask_larderSize_other (s : State) (k : Nat) (t : Task) : (s.setTask k t).larderSize = s.larderSize := rfl
@[simp] theorem State.setCtx_cluster_other (s : State) (k : Nat) (x : Ctx) (d : Nat) : (s.setCtx k x).cluster d = s.cluster d := rfl
@[simp] theorem State.setCtx_silicon_other (s : State) (k : Nat) (x : Ctx) (d : Nat) : (s.setCtx k x).silicon d = s.silicon d := rfl
@[simp] theorem State.setCtx_queue_other (s : State) (k : Nat) (x : Ctx) (d : Nat) : (s.setCtx k x).queue d = s.queue d := rfl
@[simp] theorem State.setCtx_obj_other (s : State) (k : Nat) (x : Ctx) (d : Nat) : (s.setCtx k x).obj d = s.obj d := rfl
@[simp] theorem State.setCtx_task__other (s : State) (k : Nat) (x : Ctx) (d : Nat) : (s.setCtx k x).task? d = s.task? d := rfl
@[simp] theorem State.setCtx_port_other (s : State) (k : Nat) (x : Ctx) (d : Nat) : (s.setCtx k x).port d = s.port d := rfl
@[simp] theorem State.setCtx_cport_other (s : State) (k : Nat) (x : Ctx) (d : Nat) : (s.setCtx k x).cport d = s.cport d := rfl
@[simp] theorem State.setCtx_spanOf_other (s : State) (k : Nat) (x : Ctx) (d : Nat) : (s.setCtx k x).spanOf d = s.spanOf d := rfl
@[simp] theorem State.setCtx_tileKey_other (s : State) (k : Nat) (x : Ctx) (d e : Nat) : (s.setCtx k x).tileKey d e = s.tileKey d e := rfl
@[simp] theorem State.setCtx_tile_other (s : State) (k : Nat) (x : Ctx) (d e : Nat) : (s.setCtx k x).tile d e = s.tile d e := rfl
@[simp] theorem State.setCtx_tpc_other (s : State) (k : Nat) (x : Ctx) : (s.setCtx k x).tpc = s.tpc := rfl
@[simp] theorem State.setCtx_regions_other (s : State) (k : Nat) (x : Ctx) : (s.setCtx k x).regions = s.regions := rfl
@[simp] theorem State.setCtx_die_other (s : State) (k : Nat) (x : Ctx) : (s.setCtx k x).die = s.die := rfl
@[simp] theorem State.setCtx_shelfSize_other (s : State) (k : Nat) (x : Ctx) : (s.setCtx k x).shelfSize = s.shelfSize := rfl
@[simp] theorem State.setCtx_larderSize_other (s : State) (k : Nat) (x : Ctx) : (s.setCtx k x).larderSize = s.larderSize := rfl
@[simp] theorem State.setQueue_cluster_other (s : State) (q : Nat) (x : HostQ) (d : Nat) : (s.setQueue q x).cluster d = s.cluster d := rfl
@[simp] theorem State.setQueue_silicon_other (s : State) (q : Nat) (x : HostQ) (d : Nat) : (s.setQueue q x).silicon d = s.silicon d := rfl
@[simp] theorem State.setQueue_ctx_other (s : State) (q : Nat) (x : HostQ) (d : Nat) : (s.setQueue q x).ctx d = s.ctx d := rfl
@[simp] theorem State.setQueue_obj_other (s : State) (q : Nat) (x : HostQ) (d : Nat) : (s.setQueue q x).obj d = s.obj d := rfl
@[simp] theorem State.setQueue_task__other (s : State) (q : Nat) (x : HostQ) (d : Nat) : (s.setQueue q x).task? d = s.task? d := rfl
@[simp] theorem State.setQueue_port_other (s : State) (q : Nat) (x : HostQ) (d : Nat) : (s.setQueue q x).port d = s.port d := rfl
@[simp] theorem State.setQueue_cport_other (s : State) (q : Nat) (x : HostQ) (d : Nat) : (s.setQueue q x).cport d = s.cport d := rfl
@[simp] theorem State.setQueue_spanOf_other (s : State) (q : Nat) (x : HostQ) (d : Nat) : (s.setQueue q x).spanOf d = s.spanOf d := rfl
@[simp] theorem State.setQueue_tileKey_other (s : State) (q : Nat) (x : HostQ) (d e : Nat) : (s.setQueue q x).tileKey d e = s.tileKey d e := rfl
@[simp] theorem State.setQueue_tile_other (s : State) (q : Nat) (x : HostQ) (d e : Nat) : (s.setQueue q x).tile d e = s.tile d e := rfl
@[simp] theorem State.setQueue_tpc_other (s : State) (q : Nat) (x : HostQ) : (s.setQueue q x).tpc = s.tpc := rfl
@[simp] theorem State.setQueue_regions_other (s : State) (q : Nat) (x : HostQ) : (s.setQueue q x).regions = s.regions := rfl
@[simp] theorem State.setQueue_die_other (s : State) (q : Nat) (x : HostQ) : (s.setQueue q x).die = s.die := rfl
@[simp] theorem State.setQueue_shelfSize_other (s : State) (q : Nat) (x : HostQ) : (s.setQueue q x).shelfSize = s.shelfSize := rfl
@[simp] theorem State.setQueue_larderSize_other (s : State) (q : Nat) (x : HostQ) : (s.setQueue q x).larderSize = s.larderSize := rfl
@[simp] theorem State.setObj_cluster_other (s : State) (i : Nat) (x : Obj) (d : Nat) : (s.setObj i x).cluster d = s.cluster d := rfl
@[simp] theorem State.setObj_silicon_other (s : State) (i : Nat) (x : Obj) (d : Nat) : (s.setObj i x).silicon d = s.silicon d := rfl
@[simp] theorem State.setObj_ctx_other (s : State) (i : Nat) (x : Obj) (d : Nat) : (s.setObj i x).ctx d = s.ctx d := rfl
@[simp] theorem State.setObj_queue_other (s : State) (i : Nat) (x : Obj) (d : Nat) : (s.setObj i x).queue d = s.queue d := rfl
@[simp] theorem State.setObj_task__other (s : State) (i : Nat) (x : Obj) (d : Nat) : (s.setObj i x).task? d = s.task? d := rfl
@[simp] theorem State.setObj_port_other (s : State) (i : Nat) (x : Obj) (d : Nat) : (s.setObj i x).port d = s.port d := rfl
@[simp] theorem State.setObj_cport_other (s : State) (i : Nat) (x : Obj) (d : Nat) : (s.setObj i x).cport d = s.cport d := rfl
@[simp] theorem State.setObj_spanOf_other (s : State) (i : Nat) (x : Obj) (d : Nat) : (s.setObj i x).spanOf d = s.spanOf d := rfl
@[simp] theorem State.setObj_tileKey_other (s : State) (i : Nat) (x : Obj) (d e : Nat) : (s.setObj i x).tileKey d e = s.tileKey d e := rfl
@[simp] theorem State.setObj_tile_other (s : State) (i : Nat) (x : Obj) (d e : Nat) : (s.setObj i x).tile d e = s.tile d e := rfl
@[simp] theorem State.setObj_tpc_other (s : State) (i : Nat) (x : Obj) : (s.setObj i x).tpc = s.tpc := rfl
@[simp] theorem State.setObj_regions_other (s : State) (i : Nat) (x : Obj) : (s.setObj i x).regions = s.regions := rfl
@[simp] theorem State.setObj_die_other (s : State) (i : Nat) (x : Obj) : (s.setObj i x).die = s.die := rfl
@[simp] theorem State.setObj_shelfSize_other (s : State) (i : Nat) (x : Obj) : (s.setObj i x).shelfSize = s.shelfSize := rfl
@[simp] theorem State.setObj_larderSize_other (s : State) (i : Nat) (x : Obj) : (s.setObj i x).larderSize = s.larderSize := rfl
@[simp] theorem State.onPort_cluster_other (s : State) (f : Nat) (g : Front → Front) (d : Nat) : (s.onPort f g).cluster d = s.cluster d := rfl
@[simp] theorem State.onPort_silicon_other (s : State) (f : Nat) (g : Front → Front) (d : Nat) : (s.onPort f g).silicon d = s.silicon d := rfl
@[simp] theorem State.onPort_ctx_other (s : State) (f : Nat) (g : Front → Front) (d : Nat) : (s.onPort f g).ctx d = s.ctx d := rfl
@[simp] theorem State.onPort_queue_other (s : State) (f : Nat) (g : Front → Front) (d : Nat) : (s.onPort f g).queue d = s.queue d := rfl
@[simp] theorem State.onPort_obj_other (s : State) (f : Nat) (g : Front → Front) (d : Nat) : (s.onPort f g).obj d = s.obj d := rfl
@[simp] theorem State.onPort_task__other (s : State) (f : Nat) (g : Front → Front) (d : Nat) : (s.onPort f g).task? d = s.task? d := rfl
@[simp] theorem State.onPort_cport_other (s : State) (f : Nat) (g : Front → Front) (d : Nat) : (s.onPort f g).cport d = s.cport d := rfl
@[simp] theorem State.onPort_spanOf_other (s : State) (f : Nat) (g : Front → Front) (d : Nat) : (s.onPort f g).spanOf d = s.spanOf d := rfl
@[simp] theorem State.onPort_tileKey_other (s : State) (f : Nat) (g : Front → Front) (d e : Nat) : (s.onPort f g).tileKey d e = s.tileKey d e := rfl
@[simp] theorem State.onPort_tile_other (s : State) (f : Nat) (g : Front → Front) (d e : Nat) : (s.onPort f g).tile d e = s.tile d e := rfl
@[simp] theorem State.onPort_tpc_other (s : State) (f : Nat) (g : Front → Front) : (s.onPort f g).tpc = s.tpc := rfl
@[simp] theorem State.onPort_regions_other (s : State) (f : Nat) (g : Front → Front) : (s.onPort f g).regions = s.regions := rfl
@[simp] theorem State.onPort_die_other (s : State) (f : Nat) (g : Front → Front) : (s.onPort f g).die = s.die := rfl
@[simp] theorem State.onPort_shelfSize_other (s : State) (f : Nat) (g : Front → Front) : (s.onPort f g).shelfSize = s.shelfSize := rfl
@[simp] theorem State.onPort_larderSize_other (s : State) (f : Nat) (g : Front → Front) : (s.onPort f g).larderSize = s.larderSize := rfl
@[simp] theorem State.onCport_cluster_other (s : State) (p : Nat) (g : CellarPort → CellarPort) (d : Nat) : (s.onCport p g).cluster d = s.cluster d := rfl
@[simp] theorem State.onCport_silicon_other (s : State) (p : Nat) (g : CellarPort → CellarPort) (d : Nat) : (s.onCport p g).silicon d = s.silicon d := rfl
@[simp] theorem State.onCport_ctx_other (s : State) (p : Nat) (g : CellarPort → CellarPort) (d : Nat) : (s.onCport p g).ctx d = s.ctx d := rfl
@[simp] theorem State.onCport_queue_other (s : State) (p : Nat) (g : CellarPort → CellarPort) (d : Nat) : (s.onCport p g).queue d = s.queue d := rfl
@[simp] theorem State.onCport_obj_other (s : State) (p : Nat) (g : CellarPort → CellarPort) (d : Nat) : (s.onCport p g).obj d = s.obj d := rfl
@[simp] theorem State.onCport_task__other (s : State) (p : Nat) (g : CellarPort → CellarPort) (d : Nat) : (s.onCport p g).task? d = s.task? d := rfl
@[simp] theorem State.onCport_port_other (s : State) (p : Nat) (g : CellarPort → CellarPort) (d : Nat) : (s.onCport p g).port d = s.port d := rfl
@[simp] theorem State.onCport_spanOf_other (s : State) (p : Nat) (g : CellarPort → CellarPort) (d : Nat) : (s.onCport p g).spanOf d = s.spanOf d := rfl
@[simp] theorem State.onCport_tileKey_other (s : State) (p : Nat) (g : CellarPort → CellarPort) (d e : Nat) : (s.onCport p g).tileKey d e = s.tileKey d e := rfl
@[simp] theorem State.onCport_tile_other (s : State) (p : Nat) (g : CellarPort → CellarPort) (d e : Nat) : (s.onCport p g).tile d e = s.tile d e := rfl
@[simp] theorem State.onCport_tpc_other (s : State) (p : Nat) (g : CellarPort → CellarPort) : (s.onCport p g).tpc = s.tpc := rfl
@[simp] theorem State.onCport_regions_other (s : State) (p : Nat) (g : CellarPort → CellarPort) : (s.onCport p g).regions = s.regions := rfl
@[simp] theorem State.onCport_die_other (s : State) (p : Nat) (g : CellarPort → CellarPort) : (s.onCport p g).die = s.die := rfl
@[simp] theorem State.onCport_shelfSize_other (s : State) (p : Nat) (g : CellarPort → CellarPort) : (s.onCport p g).shelfSize = s.shelfSize := rfl
@[simp] theorem State.onCport_larderSize_other (s : State) (p : Nat) (g : CellarPort → CellarPort) : (s.onCport p g).larderSize = s.larderSize := rfl
@[simp] theorem State.onSpan_cluster_other (s : State) (p : Nat) (f : Span → Span) (d : Nat) : (s.onSpan p f).cluster d = s.cluster d := rfl
@[simp] theorem State.onSpan_silicon_other (s : State) (p : Nat) (f : Span → Span) (d : Nat) : (s.onSpan p f).silicon d = s.silicon d := rfl
@[simp] theorem State.onSpan_ctx_other (s : State) (p : Nat) (f : Span → Span) (d : Nat) : (s.onSpan p f).ctx d = s.ctx d := rfl
@[simp] theorem State.onSpan_queue_other (s : State) (p : Nat) (f : Span → Span) (d : Nat) : (s.onSpan p f).queue d = s.queue d := rfl
@[simp] theorem State.onSpan_obj_other (s : State) (p : Nat) (f : Span → Span) (d : Nat) : (s.onSpan p f).obj d = s.obj d := rfl
@[simp] theorem State.onSpan_task__other (s : State) (p : Nat) (f : Span → Span) (d : Nat) : (s.onSpan p f).task? d = s.task? d := rfl
@[simp] theorem State.onSpan_port_other (s : State) (p : Nat) (f : Span → Span) (d : Nat) : (s.onSpan p f).port d = s.port d := rfl
@[simp] theorem State.onSpan_cport_other (s : State) (p : Nat) (f : Span → Span) (d : Nat) : (s.onSpan p f).cport d = s.cport d := rfl
@[simp] theorem State.onSpan_tileKey_other (s : State) (p : Nat) (f : Span → Span) (d e : Nat) : (s.onSpan p f).tileKey d e = s.tileKey d e := rfl
@[simp] theorem State.onSpan_tile_other (s : State) (p : Nat) (f : Span → Span) (d e : Nat) : (s.onSpan p f).tile d e = s.tile d e := rfl
@[simp] theorem State.onSpan_tpc_other (s : State) (p : Nat) (f : Span → Span) : (s.onSpan p f).tpc = s.tpc := rfl
@[simp] theorem State.onSpan_regions_other (s : State) (p : Nat) (f : Span → Span) : (s.onSpan p f).regions = s.regions := rfl
@[simp] theorem State.onSpan_die_other (s : State) (p : Nat) (f : Span → Span) : (s.onSpan p f).die = s.die := rfl
@[simp] theorem State.onSpan_shelfSize_other (s : State) (p : Nat) (f : Span → Span) : (s.onSpan p f).shelfSize = s.shelfSize := rfl
@[simp] theorem State.onSpan_larderSize_other (s : State) (p : Nat) (f : Span → Span) : (s.onSpan p f).larderSize = s.larderSize := rfl
@[simp] theorem State.onSilicon_cluster_other (s : State) (k : Nat) (f : TileHw → TileHw) (d : Nat) : (s.onSilicon k f).cluster d = s.cluster d := rfl
@[simp] theorem State.onSilicon_ctx_other (s : State) (k : Nat) (f : TileHw → TileHw) (d : Nat) : (s.onSilicon k f).ctx d = s.ctx d := rfl
@[simp] theorem State.onSilicon_queue_other (s : State) (k : Nat) (f : TileHw → TileHw) (d : Nat) : (s.onSilicon k f).queue d = s.queue d := rfl
@[simp] theorem State.onSilicon_obj_other (s : State) (k : Nat) (f : TileHw → TileHw) (d : Nat) : (s.onSilicon k f).obj d = s.obj d := rfl
@[simp] theorem State.onSilicon_task__other (s : State) (k : Nat) (f : TileHw → TileHw) (d : Nat) : (s.onSilicon k f).task? d = s.task? d := rfl
@[simp] theorem State.onSilicon_port_other (s : State) (k : Nat) (f : TileHw → TileHw) (d : Nat) : (s.onSilicon k f).port d = s.port d := rfl
@[simp] theorem State.onSilicon_cport_other (s : State) (k : Nat) (f : TileHw → TileHw) (d : Nat) : (s.onSilicon k f).cport d = s.cport d := rfl
@[simp] theorem State.onSilicon_spanOf_other (s : State) (k : Nat) (f : TileHw → TileHw) (d : Nat) : (s.onSilicon k f).spanOf d = s.spanOf d := rfl
@[simp] theorem State.onSilicon_tileKey_other (s : State) (k : Nat) (f : TileHw → TileHw) (d e : Nat) : (s.onSilicon k f).tileKey d e = s.tileKey d e := rfl
@[simp] theorem State.onSilicon_tile_other (s : State) (k : Nat) (f : TileHw → TileHw) (d e : Nat) : (s.onSilicon k f).tile d e = s.tile d e := rfl
@[simp] theorem State.onSilicon_tpc_other (s : State) (k : Nat) (f : TileHw → TileHw) : (s.onSilicon k f).tpc = s.tpc := rfl
@[simp] theorem State.onSilicon_regions_other (s : State) (k : Nat) (f : TileHw → TileHw) : (s.onSilicon k f).regions = s.regions := rfl
@[simp] theorem State.onSilicon_die_other (s : State) (k : Nat) (f : TileHw → TileHw) : (s.onSilicon k f).die = s.die := rfl
@[simp] theorem State.onSilicon_shelfSize_other (s : State) (k : Nat) (f : TileHw → TileHw) : (s.onSilicon k f).shelfSize = s.shelfSize := rfl
@[simp] theorem State.onSilicon_larderSize_other (s : State) (k : Nat) (f : TileHw → TileHw) : (s.onSilicon k f).larderSize = s.larderSize := rfl
@[simp] theorem State.putNat_cluster_other (s : State) (a n x : Nat) (d : Nat) : (s.putNat a n x).cluster d = s.cluster d := rfl
@[simp] theorem State.putNat_silicon_other (s : State) (a n x : Nat) (d : Nat) : (s.putNat a n x).silicon d = s.silicon d := rfl
@[simp] theorem State.putNat_ctx_other (s : State) (a n x : Nat) (d : Nat) : (s.putNat a n x).ctx d = s.ctx d := rfl
@[simp] theorem State.putNat_queue_other (s : State) (a n x : Nat) (d : Nat) : (s.putNat a n x).queue d = s.queue d := rfl
@[simp] theorem State.putNat_obj_other (s : State) (a n x : Nat) (d : Nat) : (s.putNat a n x).obj d = s.obj d := rfl
@[simp] theorem State.putNat_task__other (s : State) (a n x : Nat) (d : Nat) : (s.putNat a n x).task? d = s.task? d := rfl
@[simp] theorem State.putNat_port_other (s : State) (a n x : Nat) (d : Nat) : (s.putNat a n x).port d = s.port d := rfl
@[simp] theorem State.putNat_cport_other (s : State) (a n x : Nat) (d : Nat) : (s.putNat a n x).cport d = s.cport d := rfl
@[simp] theorem State.putNat_spanOf_other (s : State) (a n x : Nat) (d : Nat) : (s.putNat a n x).spanOf d = s.spanOf d := rfl
@[simp] theorem State.putNat_tileKey_other (s : State) (a n x : Nat) (d e : Nat) : (s.putNat a n x).tileKey d e = s.tileKey d e := rfl
@[simp] theorem State.putNat_tile_other (s : State) (a n x : Nat) (d e : Nat) : (s.putNat a n x).tile d e = s.tile d e := rfl
@[simp] theorem State.putNat_tpc_other (s : State) (a n x : Nat) : (s.putNat a n x).tpc = s.tpc := rfl
@[simp] theorem State.putNat_regions_other (s : State) (a n x : Nat) : (s.putNat a n x).regions = s.regions := rfl
@[simp] theorem State.putNat_die_other (s : State) (a n x : Nat) : (s.putNat a n x).die = s.die := rfl
@[simp] theorem State.putNat_shelfSize_other (s : State) (a n x : Nat) : (s.putNat a n x).shelfSize = s.shelfSize := rfl
@[simp] theorem State.putNat_larderSize_other (s : State) (a n x : Nat) : (s.putNat a n x).larderSize = s.larderSize := rfl
@[simp] theorem State.putBytes_cluster_other (s : State) (a : Nat) (bs : List Byte) (d : Nat) : (s.putBytes a bs).cluster d = s.cluster d := rfl
@[simp] theorem State.putBytes_silicon_other (s : State) (a : Nat) (bs : List Byte) (d : Nat) : (s.putBytes a bs).silicon d = s.silicon d := rfl
@[simp] theorem State.putBytes_ctx_other (s : State) (a : Nat) (bs : List Byte) (d : Nat) : (s.putBytes a bs).ctx d = s.ctx d := rfl
@[simp] theorem State.putBytes_queue_other (s : State) (a : Nat) (bs : List Byte) (d : Nat) : (s.putBytes a bs).queue d = s.queue d := rfl
@[simp] theorem State.putBytes_obj_other (s : State) (a : Nat) (bs : List Byte) (d : Nat) : (s.putBytes a bs).obj d = s.obj d := rfl
@[simp] theorem State.putBytes_task__other (s : State) (a : Nat) (bs : List Byte) (d : Nat) : (s.putBytes a bs).task? d = s.task? d := rfl
@[simp] theorem State.putBytes_port_other (s : State) (a : Nat) (bs : List Byte) (d : Nat) : (s.putBytes a bs).port d = s.port d := rfl
@[simp] theorem State.putBytes_cport_other (s : State) (a : Nat) (bs : List Byte) (d : Nat) : (s.putBytes a bs).cport d = s.cport d := rfl
@[simp] theorem State.putBytes_spanOf_other (s : State) (a : Nat) (bs : List Byte) (d : Nat) : (s.putBytes a bs).spanOf d = s.spanOf d := rfl
@[simp] theorem State.putBytes_tileKey_other (s : State) (a : Nat) (bs : List Byte) (d e : Nat) : (s.putBytes a bs).tileKey d e = s.tileKey d e := rfl
@[simp] theorem State.putBytes_tile_other (s : State) (a : Nat) (bs : List Byte) (d e : Nat) : (s.putBytes a bs).tile d e = s.tile d e := rfl
@[simp] theorem State.putBytes_tpc_other (s : State) (a : Nat) (bs : List Byte) : (s.putBytes a bs).tpc = s.tpc := rfl
@[simp] theorem State.putBytes_regions_other (s : State) (a : Nat) (bs : List Byte) : (s.putBytes a bs).regions = s.regions := rfl
@[simp] theorem State.putBytes_die_other (s : State) (a : Nat) (bs : List Byte) : (s.putBytes a bs).die = s.die := rfl
@[simp] theorem State.putBytes_shelfSize_other (s : State) (a : Nat) (bs : List Byte) : (s.putBytes a bs).shelfSize = s.shelfSize := rfl
@[simp] theorem State.putBytes_larderSize_other (s : State) (a : Nat) (bs : List Byte) : (s.putBytes a bs).larderSize = s.larderSize := rfl
@[simp] theorem State.clear_cluster_other (s : State) (lo n : Nat) (d : Nat) : (s.clear lo n).cluster d = s.cluster d := rfl
@[simp] theorem State.clear_silicon_other (s : State) (lo n : Nat) (d : Nat) : (s.clear lo n).silicon d = s.silicon d := rfl
@[simp] theorem State.clear_ctx_other (s : State) (lo n : Nat) (d : Nat) : (s.clear lo n).ctx d = s.ctx d := rfl
@[simp] theorem State.clear_queue_other (s : State) (lo n : Nat) (d : Nat) : (s.clear lo n).queue d = s.queue d := rfl
@[simp] theorem State.clear_obj_other (s : State) (lo n : Nat) (d : Nat) : (s.clear lo n).obj d = s.obj d := rfl
@[simp] theorem State.clear_task__other (s : State) (lo n : Nat) (d : Nat) : (s.clear lo n).task? d = s.task? d := rfl
@[simp] theorem State.clear_port_other (s : State) (lo n : Nat) (d : Nat) : (s.clear lo n).port d = s.port d := rfl
@[simp] theorem State.clear_cport_other (s : State) (lo n : Nat) (d : Nat) : (s.clear lo n).cport d = s.cport d := rfl
@[simp] theorem State.clear_spanOf_other (s : State) (lo n : Nat) (d : Nat) : (s.clear lo n).spanOf d = s.spanOf d := rfl
@[simp] theorem State.clear_tileKey_other (s : State) (lo n : Nat) (d e : Nat) : (s.clear lo n).tileKey d e = s.tileKey d e := rfl
@[simp] theorem State.clear_tile_other (s : State) (lo n : Nat) (d e : Nat) : (s.clear lo n).tile d e = s.tile d e := rfl
@[simp] theorem State.clear_tpc_other (s : State) (lo n : Nat) : (s.clear lo n).tpc = s.tpc := rfl
@[simp] theorem State.clear_regions_other (s : State) (lo n : Nat) : (s.clear lo n).regions = s.regions := rfl
@[simp] theorem State.clear_die_other (s : State) (lo n : Nat) : (s.clear lo n).die = s.die := rfl
@[simp] theorem State.clear_shelfSize_other (s : State) (lo n : Nat) : (s.clear lo n).shelfSize = s.shelfSize := rfl
@[simp] theorem State.clear_larderSize_other (s : State) (lo n : Nat) : (s.clear lo n).larderSize = s.larderSize := rfl

/-! ### What accessors read after an update of their own table -/

@[simp] theorem State.cluster_setCluster_same (s : State) (c : Nat) (x : Cluster) : (s.setCluster c x).cluster c = x := by
  simp [State.cluster, State.setCluster]

theorem State.cluster_setCluster_ne (s : State) (c : Nat) (x : Cluster) {d : Nat} (h : d ≠ c) : (s.setCluster c x).cluster d = s.cluster d := by
  simp [State.cluster, State.setCluster, Tbl.get_set_ne _ _ _ h]

@[simp] theorem State.ctx_setCtx_same (s : State) (c : Nat) (x : Ctx) : (s.setCtx c x).ctx c = x := by
  simp [State.ctx, State.setCtx]

theorem State.ctx_setCtx_ne (s : State) (c : Nat) (x : Ctx) {d : Nat} (h : d ≠ c) : (s.setCtx c x).ctx d = s.ctx d := by
  simp [State.ctx, State.setCtx, Tbl.get_set_ne _ _ _ h]

@[simp] theorem State.queue_setQueue_same (s : State) (c : Nat) (x : HostQ) : (s.setQueue c x).queue c = x := by
  simp [State.queue, State.setQueue]

theorem State.queue_setQueue_ne (s : State) (c : Nat) (x : HostQ) {d : Nat} (h : d ≠ c) : (s.setQueue c x).queue d = s.queue d := by
  simp [State.queue, State.setQueue, Tbl.get_set_ne _ _ _ h]

@[simp] theorem State.obj_setObj_same (s : State) (c : Nat) (x : Obj) : (s.setObj c x).obj c = x := by
  simp [State.obj, State.setObj]

theorem State.obj_setObj_ne (s : State) (c : Nat) (x : Obj) {d : Nat} (h : d ≠ c) : (s.setObj c x).obj d = s.obj d := by
  simp [State.obj, State.setObj, Tbl.get_set_ne _ _ _ h]

@[simp] theorem State.port_onPort_same (s : State) (c : Nat) (f : Front → Front) : (s.onPort c f).port c = f (s.port c) := by
  simp [State.port, State.onPort]

theorem State.port_onPort_ne (s : State) (c : Nat) (f : Front → Front) {d : Nat} (h : d ≠ c) : (s.onPort c f).port d = s.port d := by
  simp [State.port, State.onPort, Tbl.get_set_ne _ _ _ h]

@[simp] theorem State.cport_onCport_same (s : State) (c : Nat) (f : CellarPort → CellarPort) : (s.onCport c f).cport c = f (s.cport c) := by
  simp [State.cport, State.onCport]

theorem State.cport_onCport_ne (s : State) (c : Nat) (f : CellarPort → CellarPort) {d : Nat} (h : d ≠ c) : (s.onCport c f).cport d = s.cport d := by
  simp [State.cport, State.onCport, Tbl.get_set_ne _ _ _ h]

@[simp] theorem State.spanOf_onSpan_same (s : State) (c : Nat) (f : Span → Span) : (s.onSpan c f).spanOf c = f (s.spanOf c) := by
  simp [State.spanOf, State.onSpan]

theorem State.spanOf_onSpan_ne (s : State) (c : Nat) (f : Span → Span) {d : Nat} (h : d ≠ c) : (s.onSpan c f).spanOf d = s.spanOf d := by
  simp [State.spanOf, State.onSpan, Tbl.get_set_ne _ _ _ h]

@[simp] theorem State.silicon_onSilicon_same (s : State) (c : Nat) (f : TileHw → TileHw) : (s.onSilicon c f).silicon c = f (s.silicon c) := by
  simp [State.silicon, State.onSilicon]

theorem State.silicon_onSilicon_ne (s : State) (c : Nat) (f : TileHw → TileHw) {d : Nat} (h : d ≠ c) : (s.onSilicon c f).silicon d = s.silicon d := by
  simp [State.silicon, State.onSilicon, Tbl.get_set_ne _ _ _ h]

@[simp] theorem State.task_setTask_same (s : State) (k : Nat) (t : Task) : (s.setTask k t).task? k = some t := by
  simp [State.task?, State.setTask, Tbl.find_set_same]

theorem State.task_setTask_ne (s : State) (k : Nat) (t : Task) {d : Nat} (h : d ≠ k) : (s.setTask k t).task? d = s.task? d := by
  simp [State.task?, State.setTask, Tbl.find_set_ne _ _ h]

@[simp] theorem State.tile_setTile_same (s : State) (c t : Nat) (x : Tile) : (s.setTile c t x).tile c t = x := by
  simp [State.tile, State.setTile, State.tileKey, State.cluster]

theorem State.tile_setTile_ne (s : State) (c t : Nat) (x : Tile) {d e : Nat} (h : s.tileKey d e ≠ s.tileKey c t) :
    (s.setTile c t x).tile d e = s.tile d e := by
  have h' : (s.setTile c t x).tileKey d e ≠ s.tileKey c t := h
  show Tbl.get _ (Tbl.set _ _ _) _ = _
  rw [Tbl.get_set_ne _ _ _ h']
  rfl

/-- A task in flight changes as it is told, and no other. -/
theorem State.task_onTask (s : State) (k : Nat) (f : Task → Task) (d : Nat) :
    (s.onTask k f).task? d = if d = k then (s.task? k).map f else s.task? d := by
  unfold State.onTask
  by_cases h : d = k
  · subst h
    cases hk : s.task? d with
    | none => simp [hk]
    | some t => simp
  · cases hk : s.task? k with
    | none => simp [h]
    | some t => simp [h, State.task_setTask_ne _ _ _ h]

/-- Changing a task touches nothing but the tasks. -/
theorem State.onTask_rest (s : State) (k : Nat) (f : Task → Task) : s.onTask k f = { s with tasks := (s.onTask k f).tasks } := by
  unfold State.onTask
  cases s.task? k <;> rfl

end Sys2Proof.Machine
end

