-- ==== Sys2Proof/Laws/Issue.lean ====
section
/-! SUPPORT. What issuing a field does, said once: the state that a legal field's verb starts from, and what it leaves alone. -/
namespace Sys2Proof.Machine
set_option Elab.async false

/-- The state in which a legal field's verb does its work: its slot has taken up one more field, and WARN is counted. -/
def State.issued (s : State) (p : Place) (slot : Nat) (cl : Clause) : State :=
  (s.onTile p.cl.val p.tile.val (fun x => x.passed slot)).warnField p.cl.val p.tile.val
    (b2n (fieldWarns slot (slotField slot cl.word)) + b2n (slot = 5 && bitsN cl.word.toNat 19 5 != 0))

/-- A legal field whose slot does not wait issues. -/
theorem State.issueAs_go {s : State} {p : Place} {slot verb : Nat} {cl : Clause} {wait : Tile → Nat → Wait}
    {body : State → Clause → Nat → Bool → State} (h : s.CanIssue p slot verb cl)
    (hw : wait (s.at_ p) (slotField slot cl.word) = .go) :
    s.issueAs p slot verb wait body =
      body (s.issued p slot cl) cl (slotField slot cl.word) (cl.acts slot p.tile.val (s.at_ p)) := by
  obtain ⟨hp, ht, hn, hv, hh, hf⟩ := h
  unfold State.at_ at hn hh hw
  have hi : ((s.cluster p.cl.val).issues = true) := by simp [Cluster.issues, hp]
  have ht' : ¬ s.tpc ≤ p.tile.val := by omega
  simp [State.issueAs, State.issued, State.at_, hi, ht', hn, hv, hh, hw, hf]

/-- Counting WARN: nothing for a count of 0, else the tile's count and the flag of the cluster's task. -/
theorem State.warnField_eq (s : State) (c t n : Nat) :
    s.warnField c t n =
      if n = 0 then s
      else
        match (s.cluster c).task with
        | none => s.setTile c t ((s.tile c t).warn n)
        | some k => (s.setTile c t ((s.tile c t).warn n)).onTask k (fun x => { x with warn := true }) := by
  unfold State.warnField
  split
  · rfl
  · simp only [State.onTile_eq]
    rfl

/-- Issuing touches nothing but the tiles and the tasks. -/
theorem State.issued_rest (s : State) (p : Place) (slot : Nat) (cl : Clause) :
    s.issued p slot cl = { s with tiles := (s.issued p slot cl).tiles, tasks := (s.issued p slot cl).tasks } := by
  unfold State.issued
  rw [State.warnField_eq]
  split
  · rfl
  · split
    · rfl
    · rw [State.onTask_rest]; rfl

/-- The tile after it has issued a field. -/
theorem State.issued_at (s : State) (p : Place) (slot : Nat) (cl : Clause) :
    (s.issued p slot cl).at_ p = { (s.at_ p).passed slot with errWarn := ((s.issued p slot cl).at_ p).errWarn } := by
  unfold State.issued State.at_
  rw [State.warnField_eq]
  split
  · simp
  · split
    · simp [Tile.warn]
    · rw [State.onTask_rest]
      simp [State.tile, State.tileKey, State.cluster, State.setTile, Tile.warn]

/-- The tile after it has issued a field: its issue counts, its clause queue and its count of WARN are all that changed. -/
theorem State.issued_at_fields (s : State) (p : Place) (slot : Nat) (cl : Clause) :
    ∃ w, (s.issued p slot cl).at_ p =
      { s.at_ p with issued := ((s.at_ p).passed slot).issued, clauseQ := ((s.at_ p).passed slot).clauseQ, errWarn := w } :=
  ⟨_, s.issued_at p slot cl⟩

/-- Issuing leaves every other tile alone. -/
theorem State.issued_other (s : State) (p : Place) (slot : Nat) (cl : Clause) (k : Nat)
    (h : k ≠ s.tileKey p.cl.val p.tile.val) :
    Tbl.get Tile.fresh (s.issued p slot cl).tiles k = Tbl.get Tile.fresh s.tiles k := by
  unfold State.issued
  rw [State.warnField_eq]
  split
  · simp [State.setTile, Tbl.get_set_ne _ _ _ h]
  · split
    · simp [State.setTile, State.tileKey, State.cluster] at *
      rw [Tbl.get_set_ne _ _ _ h, Tbl.get_set_ne _ _ _ h]
    · rw [State.onTask_rest]
      simp [State.setTile, State.tileKey, State.cluster] at *
      rw [Tbl.get_set_ne _ _ _ h, Tbl.get_set_ne _ _ _ h]

/-- Issuing changes no task but in its WARN flag. -/
theorem State.issued_task (s : State) (p : Place) (slot : Nat) (cl : Clause) (k : Nat) :
    ((s.issued p slot cl).task? k).map (fun x => { x with warn := false }) =
      (s.task? k).map (fun x => { x with warn := false }) := by
  unfold State.issued
  rw [State.warnField_eq]
  split
  · simp
  · split
    · simp
    · rename_i j _
      rw [State.task_onTask]
      by_cases hk : k = j
      · subst hk
        simp
        cases s.task? k <;> rfl
      · simp [hk]

/-- Where its tile lies does not depend on a field having issued. -/
theorem State.issued_tileKey (s : State) (p : Place) (slot : Nat) (cl : Clause) (c t : Nat) :
    (s.issued p slot cl).tileKey c t = s.tileKey c t := by
  rw [State.issued_rest]; rfl

/-- A slot that takes up a field moves on by one, and the other slots do not. -/
theorem Tile.passed_issuedOne (x : Tile) (slot : Nat) : x.IssuedOne (x.passed slot) slot := by
  refine ⟨?_, ?_, ?_⟩
  · simp [Tile.passed, Tile.issuedBy]
  · intro k hk
    simp [Tile.passed, Tile.issuedBy, Tbl.get_set_ne _ _ _ hk]
  · rfl

/-- A verb that works on its tile alone: what a state made by issuing and then writing that tile keeps. -/
theorem State.onlyTile_write (s : State) (p : Place) (slot : Nat) (cl : Clause) (x : Tile) :
    s.OnlyTile ((s.issued p slot cl).setTile p.cl.val p.tile.val x) p := by
  refine ⟨?_, ?_, ?_, ?_⟩
  · conv => lhs; rw [State.issued_rest]
    simp [State.setTile, State.issued_tileKey]
    rfl
  · intro k hk
    have := s.issued_other p slot cl k hk
    simp only [State.setTile, State.issued_tileKey]
    rw [Tbl.get_set_ne _ _ _ hk, this]
  · intro k
    simpa using s.issued_task p slot cl k
  · intro a
    rw [State.setTile_mem, State.issued_rest]

/-- A verb that issues and does no more keeps what issuing keeps. -/
theorem State.onlyTile_issued (s : State) (p : Place) (slot : Nat) (cl : Clause) : s.OnlyTile (s.issued p slot cl) p := by
  refine ⟨State.issued_rest .., fun k hk => s.issued_other p slot cl k hk, fun k => s.issued_task p slot cl k, ?_⟩
  intro a
  rw [State.issued_rest]

end Sys2Proof.Machine
end

