-- ==== Sys2Proof/Laws/Memory.lean ====
section
/-! SUPPORT. The laws of memory: reading after writing, and the canonical form that every operation keeps. -/
namespace Sys2Proof.Machine
set_option Elab.async false

/-! ### Addresses above a bound -/

theorem memAbove_mono {a b : Nat} (h : a ≤ b) : ∀ m : Memory, memAbove b m = true → memAbove a m = true
  | [], _ => rfl
  | (x, _) :: _, hm => by
    simp only [memAbove, decide_eq_true_eq] at hm ⊢
    omega

/-- A canonical memory lists nothing at or below a bound that its first address exceeds. -/
theorem memGet_of_memAbove {a : Nat} : ∀ m : Memory, memWf m = true → memAbove a m = true → ∀ b ≤ a, memGet m b = 0
  | [], _, _, _, _ => rfl
  | (x, v) :: r, hw, ha, b, hb => by
    simp only [memWf, Bool.and_eq_true] at hw
    simp only [memAbove, decide_eq_true_eq] at ha
    have hx : ¬ x = b := by omega
    simp only [memGet, hx, if_false]
    exact memGet_of_memAbove r hw.2 hw.1.2 b (by omega)

/-- The rest of a canonical memory lies above what its first entry exceeds. -/
theorem memAbove_tail {a x : Nat} {v : Byte} {r : Memory} (hw : memWf ((x, v) :: r) = true) (ha : memAbove a ((x, v) :: r) = true) :
    memAbove a r = true := by
  simp only [memWf, Bool.and_eq_true] at hw
  simp only [memAbove, decide_eq_true_eq] at ha
  exact memAbove_mono (Nat.le_of_lt ha) r hw.1.2

theorem memAbove_memSet {a x : Nat} (v : Byte) (h : a < x) :
    ∀ m : Memory, memWf m = true → memAbove a m = true → memAbove a (memSet x v m) = true
  | [], _, _ => by
    unfold memSet
    split
    · rfl
    · simpa [memAbove] using h
  | (y, w) :: r, hw, hm => by
    have ht := memAbove_tail hw hm
    simp only [memAbove, decide_eq_true_eq] at hm
    unfold memSet
    split
    · split
      · simpa [memAbove] using hm
      · simpa [memAbove] using h
    · split
      · split
        · exact ht
        · simpa [memAbove] using h
      · simpa [memAbove] using hm

/-! ### The canonical form -/

/-- Writing a byte keeps the canonical form. -/
theorem memWf_memSet (x : Nat) (v : Byte) : ∀ m : Memory, memWf m = true → memWf (memSet x v m) = true
  | [], _ => by
    unfold memSet
    split
    · rfl
    · rename_i h
      simp only [memWf, memAbove, Bool.and_eq_true, bne_iff_ne]
      exact ⟨⟨h, trivial⟩, trivial⟩
  | (y, w) :: r, hw => by
    have hr := hw
    simp only [memWf, Bool.and_eq_true] at hr
    unfold memSet
    split
    · split
      · exact hw
      · rename_i h1 h2
        simp only [memWf, memAbove, Bool.and_eq_true, bne_iff_ne, decide_eq_true_eq] at hr ⊢
        exact ⟨⟨h2, h1⟩, hr⟩
    · split
      · split
        · exact hr.2
        · rename_i h1 h2 h3
          subst h2
          simp only [memWf, Bool.and_eq_true, bne_iff_ne]
          exact ⟨⟨h3, hr.1.2⟩, hr.2⟩
      · rename_i h1 h2
        have hy : y < x := by omega
        simp only [memWf, Bool.and_eq_true]
        exact ⟨⟨hr.1.1, memAbove_memSet v hy r hr.2 hr.1.2⟩, memWf_memSet x v r hr.2⟩

/-- Writing bytes keeps the canonical form. -/
theorem memWf_memPut : ∀ (bs : List Byte) (a : Nat) (m : Memory), memWf m = true → memWf (memPut a bs m) = true
  | [], _, _, h => h
  | b :: r, a, m, h => memWf_memPut r (a + 1) _ (memWf_memSet a b m h)

theorem memAbove_filter {a : Nat} (p : Host.Cell → Bool) : ∀ m : Memory, memWf m = true → memAbove a m = true →
    memAbove a (m.filter p) = true
  | [], _, _ => rfl
  | (x, v) :: r, hw, ha => by
    have ht := memAbove_tail hw ha
    have hr := hw
    simp only [memWf, Bool.and_eq_true] at hr
    by_cases h : p (x, v) = true
    · simpa [List.filter, h, memAbove] using ha
    · simpa [List.filter, h] using memAbove_filter p r hr.2 ht

/-- Dropping entries, which makes their bytes read 0, keeps the canonical form. -/
theorem memWf_filter (p : Host.Cell → Bool) : ∀ m : Memory, memWf m = true → memWf (m.filter p) = true
  | [], _ => rfl
  | (x, v) :: r, hw => by
    have hr := hw
    simp only [memWf, Bool.and_eq_true] at hr
    by_cases h : p (x, v) = true
    · rw [List.filter_cons_of_pos h]
      simp only [memWf, Bool.and_eq_true]
      exact ⟨⟨hr.1.1, memAbove_filter p r hr.2 hr.1.2⟩, memWf_filter p r hr.2⟩
    · simpa [List.filter, h] using memWf_filter p r hr.2

/-- Clearing a range keeps the canonical form. -/
theorem memWf_memClear (lo hi : Nat) (m : Memory) (h : memWf m = true) : memWf (memClear lo hi m) = true := memWf_filter _ m h

/-- A fold whose every step keeps the canonical form keeps it. -/
theorem memWf_foldl {α : Type} (f : Memory → α → Memory) (hf : ∀ m x, memWf m = true → memWf (f m x) = true) :
    ∀ (l : List α) (m : Memory), memWf m = true → memWf (l.foldl f m) = true
  | [], _, h => h
  | x :: r, m, h => memWf_foldl f hf r (f m x) (hf m x h)

/-- Copying listed bytes keeps the canonical form. -/
theorem memWf_memMove (src dst n : Nat) (m : Memory) (h : memWf m = true) : memWf (memMove src dst n m) = true :=
  memWf_foldl _ (fun m c hm => memWf_memSet (c.1 - src + dst) c.2 m hm) _ _ (memWf_memClear dst (dst + n) m h)

/-! ### Reading after writing -/

/-- A byte reads as it was written. -/
theorem memGet_memSet_same (x : Nat) (v : Byte) : ∀ m : Memory, memWf m = true → memGet (memSet x v m) x = v
  | [], _ => by
    unfold memSet
    split
    · rename_i h
      simp [memGet, h]
    · simp [memGet]
  | (y, w) :: r, hw => by
    have hr := hw
    simp only [memWf, Bool.and_eq_true] at hr
    unfold memSet
    split
    · rename_i h1
      have hz : memGet ((y, w) :: r) x = 0 :=
        memGet_of_memAbove ((y, w) :: r) hw (a := x) (by simpa [memAbove] using h1) x (Nat.le_refl x)
      split
      · rename_i h2
        rw [hz, h2]
      · simp [memGet]
    · split
      · rename_i h1 h2
        split
        · rename_i h3
          rw [memGet_of_memAbove r hr.2 hr.1.2 x (by omega), h3]
        · simp [memGet]
      · rename_i h1 h2
        have hx : ¬ y = x := fun e => h2 e.symm
        simp [memGet, hx, memGet_memSet_same x v r hr.2]

/-- A write leaves every other byte alone. -/
theorem memGet_memSet_ne {x a : Nat} (v : Byte) (h : a ≠ x) : ∀ m : Memory, memGet (memSet x v m) a = memGet m a
  | [] => by
    have hx : ¬ x = a := fun e => h e.symm
    unfold memSet
    split
    · rfl
    · simp [memGet, hx]
  | (y, w) :: r => by
    have hx : ¬ x = a := fun e => h e.symm
    unfold memSet
    split
    · split
      · rfl
      · simp [memGet, hx]
    · split
      · rename_i h1 h2
        subst h2
        split
        · simp [memGet, hx]
        · simp [memGet, hx]
      · by_cases hy : y = a
        · simp [memGet, hy]
        · simp [memGet, hy, memGet_memSet_ne v h r]

/-- Writing bytes leaves every byte outside them alone. -/
theorem memGet_memPut_out {a : Nat} : ∀ (bs : List Byte) (x : Nat) (m : Memory), (a < x ∨ x + bs.length ≤ a) →
    memGet (memPut x bs m) a = memGet m a
  | [], _, _, _ => rfl
  | b :: r, x, m, h => by
    simp only [List.length_cons] at h
    show memGet (memPut (x + 1) r (memSet x b m)) a = _
    rw [memGet_memPut_out r (x + 1) _ (by omega), memGet_memSet_ne b (by omega)]

/-- Written bytes read as they were written. -/
theorem memGet_memPut_in : ∀ (bs : List Byte) (x i : Nat) (m : Memory), memWf m = true → (h : i < bs.length) →
    memGet (memPut x bs m) (x + i) = bs[i]
  | b :: r, x, 0, m, hw, _ => by
    show memGet (memPut (x + 1) r (memSet x b m)) (x + 0) = _
    rw [memGet_memPut_out r (x + 1) _ (by omega)]
    exact memGet_memSet_same x b m hw
  | b :: r, x, i + 1, m, hw, h => by
    show memGet (memPut (x + 1) r (memSet x b m)) (x + (i + 1)) = _
    have e : x + (i + 1) = (x + 1) + i := by omega
    rw [e, memGet_memPut_in r (x + 1) i _ (memWf_memSet x b m hw) (by simpa using h)]
    rfl

/-- After a range is cleared its bytes read 0 and the others as before. -/
theorem memGet_memClear (lo hi a : Nat) : ∀ m : Memory, memGet (memClear lo hi m) a = if lo ≤ a ∧ a < hi then 0 else memGet m a
  | [] => by simp [memClear, memGet]
  | (x, v) :: r => by
    have ih := memGet_memClear lo hi a r
    unfold memClear at ih ⊢
    by_cases hp : x < lo ∨ hi ≤ x
    · have hp' : (decide (x < lo) || decide (hi ≤ x)) = true := by simpa using hp
      rw [List.filter_cons_of_pos (by simpa using hp)]
      by_cases hx : x = a
      · subst hx
        have : ¬ (lo ≤ x ∧ x < hi) := by omega
        simp [memGet, this]
      · simp [memGet, hx, ih]
    · rw [List.filter_cons_of_neg (by simpa using hp), ih]
      by_cases hx : x = a
      · subst hx
        have : lo ≤ x ∧ x < hi := by omega
        simp [this]
      · simp [memGet, hx]

/-- The memory of the die right after reset is canonical. -/
theorem memWf_reset : memWf State.reset.mem = true := rfl

end Sys2Proof.Machine
end

