-- ==== Sys2Proof/Laws/Keeps.lean ====
section
/-! SUPPORT. What the shared operations can do, said once: stopping a run, sending, retiring a task, clearing and writing. -/
namespace Sys2Proof.Machine
set_option Elab.async false

/-! ### Folds -/

/-- A fold whose every step keeps a property keeps it. -/
theorem foldl_keeps {α : Type} (P : State → Prop) (f : State → α → State) (hf : ∀ s x, P s → P (f s x)) :
    ∀ (l : List α) (s : State), P s → P (l.foldl f s)
  | [], _, h => h
  | x :: r, s, h => foldl_keeps P f hf r (f s x) (hf s x h)

/-- The same for `each`. -/
theorem State.each_keeps (P : State → Prop) (f : State → Nat → State) (hf : ∀ s i, P s → P (f s i)) (l : List Nat) (s : State)
    (h : P s) : P (s.each l f) := foldl_keeps P f hf l s h

/-! ### Stopping a run (R288, R294) -/

/-- A state that differs at most in its tasks, clusters, tiles, the messages that wait, and in what goes out on the links. -/
def State.RunOnly (s t : State) : Prop :=
  ∃ a b c d e m, t = { s with tasks := a, clusters := b, tiles := c, linkOut := d, span := e, mails := m }

theorem State.RunOnly.refl (s : State) : s.RunOnly s := ⟨_, _, _, _, _, _, rfl⟩

theorem State.RunOnly.trans {s t u : State} (h : s.RunOnly t) (g : t.RunOnly u) : s.RunOnly u := by
  obtain ⟨_, _, _, _, _, _, rfl⟩ := h
  obtain ⟨_, _, _, _, _, _, rfl⟩ := g
  exact ⟨_, _, _, _, _, _, rfl⟩

theorem State.RunOnly.mem {s t : State} (h : s.RunOnly t) : t.mem = s.mem := by
  obtain ⟨_, _, _, _, _, _, rfl⟩ := h
  rfl

/-- A message to another die changes only what goes out on the links. -/
theorem State.send_runOnly (s : State) (die : Nat) (m : LMsg) : s.RunOnly (s.send die m) := by
  unfold State.send
  dsimp only
  split
  · exact ⟨_, _, _, _, _, _, rfl⟩
  · exact ⟨_, _, _, _, _, _, rfl⟩

theorem State.haltCluster_runOnly (s : State) (c : Nat) : s.RunOnly (s.haltCluster c) := by
  unfold State.haltCluster
  dsimp only
  refine State.RunOnly.trans (t := s.each s.tilesOf (fun s t => s.onTile c t Tile.halt)) ?_ ⟨_, _, _, _, _, _, rfl⟩
  exact State.each_keeps (fun t => s.RunOnly t) _ (fun t i h => h.trans ⟨_, _, _, _, _, _, rfl⟩) _ _ (State.RunOnly.refl s)

theorem State.stopRun_runOnly (s : State) (k : Nat) (t : Task) (cause : EndCause) : s.RunOnly (s.stopRun k t cause) := by
  unfold State.stopRun
  dsimp only
  exact State.each_keeps (fun u => s.RunOnly u) _ (fun u i h => h.trans (u.haltCluster_runOnly i)) _ _ ⟨_, _, _, _, _, _, rfl⟩

theorem State.abortOne_runOnly (s : State) (k : Nat) (cause : EndCause) : s.RunOnly (s.abortOne k cause) := by
  unfold State.abortOne
  split
  · exact State.RunOnly.refl s
  · split
    · exact State.RunOnly.refl s
    · exact State.RunOnly.refl s
    · exact ⟨_, _, _, _, _, _, rfl⟩
    · exact foldl_keeps (fun u => s.RunOnly u) _ (fun u d h => h.trans (u.send_runOnly d.1 _)) _ _ (s.stopRun_runOnly k _ cause)
    · exact ⟨_, _, _, _, _, _, rfl⟩
    · exact ⟨_, _, _, _, _, _, rfl⟩

/-- An abort, with every run behind it, changes only tasks, clusters, tiles and what goes out on the links. -/
theorem State.abortRun_runOnly (s : State) (k : Nat) (cause : EndCause) : s.RunOnly (s.abortRun k cause) := by
  unfold State.abortRun
  exact foldl_keeps (fun u => s.RunOnly u) _ (fun u f h => h.trans (u.abortOne_runOnly f .followOn)) _ _ (s.abortOne_runOnly k cause)

@[simp] theorem State.abortRun_mem (s : State) (k : Nat) (cause : EndCause) : (s.abortRun k cause).mem = s.mem :=
  (s.abortRun_runOnly k cause).mem

@[simp] theorem State.send_mem (s : State) (die : Nat) (m : LMsg) : (s.send die m).mem = s.mem := (s.send_runOnly die m).mem

/-! ### Objects and tasks: memory stays -/

/-- A fold whose every step leaves memory as it is leaves it so. -/
theorem foldl_mem {α : Type} (f : State → α → State) (hf : ∀ s x, (f s x).mem = s.mem) :
    ∀ (l : List α) (s : State), (l.foldl f s).mem = s.mem
  | [], _ => rfl
  | x :: r, s => (foldl_mem f hf r (f s x)).trans (hf s x)

/-- The same for `each`. -/
theorem State.each_mem (f : State → Nat → State) (hf : ∀ s i, (f s i).mem = s.mem) (l : List Nat) (s : State) :
    (s.each l f).mem = s.mem := foldl_mem f hf l s

@[simp] theorem State.onCluster_mem (s : State) (c : Nat) (f : Cluster → Cluster) : (s.onCluster c f).mem = s.mem := rfl
@[simp] theorem State.onQueue_mem (s : State) (q : Nat) (f : HostQ → HostQ) : (s.onQueue q f).mem = s.mem := rfl
@[simp] theorem State.onObj_mem (s : State) (i : Nat) (f : Obj → Obj) : (s.onObj i f).mem = s.mem := rfl

@[simp] theorem State.onTask_mem (s : State) (k : Nat) (f : Task → Task) : (s.onTask k f).mem = s.mem := by
  unfold State.onTask
  split <;> rfl

theorem State.settleObj_mem (s : State) (slot : Nat) : (s.settleObj slot).mem = s.mem := by
  unfold State.settleObj
  dsimp only
  split <;> rfl

theorem State.dropObj_mem (s : State) (slot : Nat) (st : ObjSt) : (s.dropObj slot st).mem = s.mem := by
  unfold State.dropObj
  dsimp only
  split
  · rw [State.settleObj_mem, State.setObj_mem]
  · rfl

theorem State.dropRefs_mem (s : State) (slots : List Nat) : (s.dropRefs slots).mem = s.mem := by
  unfold State.dropRefs
  refine State.each_mem _ (fun t i => ?_) _ _
  rw [State.settleObj_mem, State.onObj_mem]

theorem State.freeOwned_mem (s : State) (id : BitVec 12) : (s.freeOwned id).mem = s.mem := by
  unfold State.freeOwned
  exact foldl_mem _ (fun t (p : Nat × Obj) => t.dropObj_mem p.1 .freed) _ _

theorem State.settleCtx_mem (s : State) (id : BitVec 12) : (s.settleCtx id).mem = s.mem := by
  unfold State.settleCtx
  dsimp only
  generalize hu : (if (decide ((s.ctx id.toNat).st = CtxSt.teardown) && !decide (s.tasksOf s.die id ≠ [])) = true then
    s.freeOwned id else s) = u
  have hm : u.mem = s.mem := by
    rw [← hu]
    split
    · exact s.freeOwned_mem id
    · rfl
  split
  · exact hm
  · split
    · split
      · rw [State.each_mem _ (fun t q => State.onQueue_mem t q _), State.setCtx_mem, hm]
      · rw [State.setCtx_mem, hm]
    · split
      · rw [State.setCtx_mem, State.each_mem _ (fun t q => State.onQueue_mem t q _), hm]
      · exact hm

theorem State.tellIdle_mem (s : State) (c : Nat) : (s.tellIdle c).mem = s.mem := by
  unfold State.tellIdle
  split
  · exact foldl_mem _ (fun t d => t.send_mem d _) _ _
  · rfl

theorem State.freeCluster_mem (s : State) (c : Nat) : (s.freeCluster c).mem = s.mem := by
  unfold State.freeCluster
  rw [State.tellIdle_mem, State.onCluster_mem]

theorem State.leaveCluster_mem (s : State) (k c : Nat) : (s.leaveCluster k c).mem = s.mem := by
  unfold State.leaveCluster
  split
  · rw [State.onCluster_mem]
  · exact s.freeCluster_mem c

theorem State.freeClusters_mem (s : State) (k : Nat) : (s.freeClusters k).mem = s.mem := by
  unfold State.freeClusters
  dsimp only
  rw [State.each_mem _ (fun t c => ?_), State.each_mem _ (fun t c => t.leaveCluster_mem k c)]
  split
  · rw [State.onCluster_mem]
  · rfl

theorem State.unresolve_mem (s : State) (k : Nat) (t : Task) : (s.unresolve k t).mem = s.mem := by
  unfold State.unresolve
  dsimp only
  rw [foldl_mem _ (fun u n => ?_), foldl_mem _ (fun u r => ?_)]
  · rw [State.settleObj_mem, State.onObj_mem]
  · split
    · rw [State.onObj_mem]
    · rfl

theorem State.post_mem (s : State) (t : Task) (status : Nat) : (s.post t status).mem = s.mem := by
  unfold State.post
  split
  · rfl
  · rw [State.onPort_mem]

theorem State.ungather_mem (s : State) (q : Nat) : (s.ungather q).mem = s.mem := by
  unfold State.ungather
  dsimp only
  rw [State.onQueue_mem, foldl_mem _ (fun u d => ?_), State.each_mem _ (fun u c => ?_)]
  · split
    · rw [State.onCluster_mem]
    · rfl
  · split
    · rfl
    · exact u.send_mem d.1 _

theorem State.endUrgent_mem (s : State) (q part : Nat) : (s.endUrgent q part).mem = s.mem := by
  unfold State.endUrgent
  split
  · exact foldl_mem _ (fun u d => u.send_mem d _) _ _
  · rfl

theorem State.tellEnd_mem (s : State) (t : Task) : (s.tellEnd t).mem = s.mem := by
  unfold State.tellEnd
  split
  · exact foldl_mem _ (fun u (d : Nat × Nat) => u.send_mem d.1 _) _ _
  · rfl

/-- What a task leaves when it retires: the memory of the state before, but for the scratch bytes of one that did not commit
(R270). -/
theorem State.retire_mem (s : State) (k status : Nat) :
    (s.retire k status).mem = s.mem ∨ ∃ t, s.task? k = some t ∧ 2 ≤ status ∧ (s.retire k status).mem = (s.freeScratch t).mem := by
  unfold State.retire
  split
  · exact .inl rfl
  · rename_i t ht
    dsimp only
    generalize hu : (if 2 ≤ status then (s.freeScratch t).tellEnd t else s) = u
    have hm (v : State) (hv : v.mem = u.mem) : (State.freeClusters { v with tasks := Tbl.del k v.tasks } k).mem = u.mem :=
      (State.freeClusters_mem _ k).trans hv
    have key : ∀ m : Memory, m = u.mem → m = s.mem ∨ ∃ t', s.task? k = some t' ∧ 2 ≤ status ∧ m = (s.freeScratch t').mem := by
      intro m h
      subst h
      rw [← hu]
      split
      · exact .inr ⟨t, ht, by assumption, State.tellEnd_mem _ t⟩
      · exact .inl rfl
    apply key
    split
    · rw [State.settleCtx_mem]
      split
      · simp only [State.onQueue_mem, State.ungather_mem, State.endUrgent_mem, State.dropRefs_mem, State.post_mem]
        exact hm _ (u.unresolve_mem k t)
      · simp only [State.onQueue_mem, State.dropRefs_mem, State.post_mem]
        exact hm _ (u.unresolve_mem k t)
    · rw [State.dropRefs_mem]
      exact hm _ (u.unresolve_mem k t)

/-! ### Memory: the canonical form -/

theorem State.putNat_wf (s : State) (a n x : Nat) (h : memWf s.mem = true) : memWf (s.putNat a n x).mem = true :=
  memWf_memPut _ _ _ h

theorem State.putBytes_wf (s : State) (a : Nat) (bs : List Byte) (h : memWf s.mem = true) : memWf (s.putBytes a bs).mem = true :=
  memWf_memPut _ _ _ h

theorem State.clear_wf (s : State) (lo n : Nat) (h : memWf s.mem = true) : memWf (s.clear lo n).mem = true := memWf_memClear _ _ _ h

theorem State.zeroGranules_wf (s : State) (tier home base len : Nat) (h : memWf s.mem = true) :
    memWf (s.zeroGranules tier home base len).mem = true := by
  unfold State.zeroGranules
  split
  · exact State.each_keeps (fun t => memWf t.mem = true) _ (fun t _ g => t.clear_wf _ _ g) _ _ h
  · exact s.clear_wf _ _ h
  · exact s.clear_wf _ _ h

theorem State.copyOut_wf (s : State) (o : Obj) (ver : Bool) (from_ n dst : Nat) (h : memWf s.mem = true) :
    memWf (s.copyOut o ver from_ n dst).mem = true := by
  unfold State.copyOut
  dsimp only
  split
  · refine State.each_keeps (fun t => memWf t.mem = true) _ (fun t _ g => ?_) _ _ (s.clear_wf _ _ h)
    split
    · exact memWf_memMove _ _ _ _ g
    · exact g
  · split
    · exact memWf_memMove _ _ _ _ (s.clear_wf _ _ h)
    · exact s.clear_wf _ _ h

/-! ### Granules leave memory as it is until they are answered -/

theorem State.settleAcc_mem (s : State) (key id : Nat) : (s.settleAcc key id).mem = s.mem := by
  unfold State.settleAcc
  dsimp only
  cases h : (Tbl.get Tile.fresh s.tiles key).accs.find? (fun a => a.id = id) with
  | none => rfl
  | some a =>
    dsimp only
    generalize ((s.cluster (key / 17)).phase = Phase.stopped && _) = b
    cases b <;> rfl

theorem State.answered_mem (s : State) (key id half : Nat) (data : Option Entry) : (s.answered key id half data).mem = s.mem := by
  unfold State.answered
  rw [State.settleAcc_mem]
  rfl

theorem State.servedOne_mem (s : State) (die tag half err : Nat) (data : Option Entry) :
    (s.servedOne die tag half err data).mem = s.mem := by
  unfold State.servedOne
  split
  · rfl
  · dsimp only
    split
    · rw [State.send_mem]
    · rfl

theorem State.deliver_mem (s : State) (g : Gran) (err : Nat) (data : Option Entry) : (s.deliver g err data).mem = s.mem := by
  unfold State.deliver
  split
  · exact s.answered_mem _ _ _ _
  · exact s.servedOne_mem _ _ _ _ _
  · rfl

theorem State.granuleFault_mem (s : State) (g : Gran) (cls : Nat) : (s.granuleFault g cls).mem = s.mem := by
  unfold State.granuleFault
  dsimp only
  split <;> first | rfl | (split <;> first | rfl | exact State.abortRun_mem _ _ _)

theorem State.unserved_mem (s : State) (g : Gran) : (s.unserved g).mem = s.mem := by
  unfold State.unserved
  rw [State.deliver_mem, State.granuleFault_mem]
  rfl

/-- A granule that is asked of a port changes no memory: it waits, or completes at once as unserved (R251, R351). -/
theorem State.enqueue_mem (s : State) (g : Gran) : (s.enqueue g).mem = s.mem := by
  unfold State.enqueue
  split
  · exact s.unserved_mem g
  · dsimp only
    split
    · rfl
    · unfold State.waiter
      split <;> rfl

theorem State.fencePort_mem (s : State) (o : Obj) (off n v : Nat) : (s.fencePort o off n v).mem = s.mem := by
  unfold State.fencePort
  split
  · exact State.enqueue_mem _ _
  · rfl

theorem State.writeFence_wf (s : State) (slot v : Nat) (seq : Option Word) (h : memWf s.mem = true) :
    memWf (s.writeFence slot v seq).mem = true := by
  have pulse (t : State) (i : Nat) : (t.pulseFor i).mem = t.mem := by
    unfold State.pulseFor
    split <;> rfl
  unfold State.writeFence
  split
  · exact h
  · dsimp only
    rw [pulse]
    split
    · rw [State.fencePort_mem]
      exact s.putNat_wf _ _ _ h
    · rw [State.fencePort_mem]
      refine State.putNat_wf _ _ _ _ ?_
      rw [State.fencePort_mem]
      exact s.putNat_wf _ _ _ h

/-- The scratch bytes of a task that did not commit take free values: the canonical form stays (R270). -/
theorem State.freeScratch_wf (s : State) (t : Task) (h : memWf s.mem = true) : memWf (s.freeScratch t).mem = true := by
  unfold State.freeScratch
  refine foldl_keeps (fun u => memWf u.mem = true) _ (fun u r g => ?_) _ _ h
  dsimp only
  refine foldl_keeps (fun u => memWf u.mem = true) _ (fun v i k => ?_) _ _ g
  split
  · exact v.putNat_wf _ _ _ k
  · exact k

theorem State.retire_wf (s : State) (k status : Nat) (h : memWf s.mem = true) : memWf (s.retire k status).mem = true := by
  rcases s.retire_mem k status with e | ⟨t, _, _, e⟩
  · rw [e]; exact h
  · rw [e]; exact s.freeScratch_wf t h

theorem State.putEnabled_wf (s : State) (addr : Nat) (d : Entry) (be : BitVec 64) (h : memWf s.mem = true) :
    memWf (s.putEnabled addr d be).mem = true := by
  unfold State.putEnabled
  split
  · exact s.putNat_wf _ _ _ h
  · refine foldl_keeps (fun u => memWf u.mem = true) _ (fun u i g => ?_) _ _ h
    split
    · exact u.putNat_wf _ _ _ g
    · exact g

end Sys2Proof.Machine
end

