-- ==== Sys2Proof/Tests/Slice0.lean ====
section
/-! SUPPORT. The author's own tests: which commands cannot be sent, small worked cases of the manual, and for every statement
a state and operands that meet its premises. -/
namespace Sys2Proof.Tests
set_option Elab.async false
open Sys2Proof Sys2Proof.Machine

set_option maxRecDepth 20000

/-! ### Small states -/

/-- Tile 0 of cluster 0. -/
def p0 : Place := ⟨0, 0⟩

/-- The state that a command goes on in; the state before it where it stops. -/
def after (i : Instr) (s : State) : State :=
  match exec i s with
  | .next t => t
  | _ => s

/-- A clause word of slot fields, given as (slot, field). -/
def wordOf (fs : List (Nat × Nat)) : BitVec 256 :=
  BitVec.ofNat 256 ((fs.map (fun p => p.2 * 2 ^ [24, 48, 104, 144, 192, 232].getD p.1 0)).sum)

/-- Clause 0 with one slot field. -/
def one (slot field : Nat) : Clause := { seq := 0, addr := 0, word := wordOf [(slot, field)], mask := 0xFFFF }

/-- A die that serves, cluster 0 running, a tile 0 there. -/
def with0 (x : Tile) : State :=
  { State.reset with start := { State.reset.start with st := 7 }, scrub := { State.reset.scrub with running := true },
                     sec := { State.reset.sec with fallback := false, cause := 0 },
                     clusters := [(0, { Cluster.fresh with phase := .running })], tiles := [(0, x)] }

/-- Tile 0 with a clause of one slot field to issue. -/
def tile1 (slot field : Nat) : Tile := { Tile.fresh with clauseQ := [one slot field] }

/-- A running cluster with a clause of one slot field to issue in tile 0. -/
def issuing (slot field : Nat) : State := with0 (tile1 slot field)

/-- A descriptor of one level: slot, width code, space. -/
def agdOf (slot width space : Nat) : BitVec 384 :=
  BitVec.ofNat 384 (space * 2 ^ 32 + 2 ^ 37 + slot * 2 ^ 40 + width * 2 ^ 43 + 3 * 2 ^ 64 + 64 * 2 ^ 80)

/-- Task 1 of die 0 for context 0: nothing named, cluster 0 its only one. -/
def job : Task where
  seq := 1
  die := 0
  port := 0
  tag := 5
  mid := 0
  queue := 0
  ctx := 0
  part := 0
  desc := 0
  objs := []
  refs := []
  named := []
  paraSlot := 0
  paraVer := false
  life := .running
  clusters := [0]
  started := [0]
  total := 1
  layout := [(0, 1)]
  stops := 0
  outst := 1
  used := false
  rerun := false
  firstAddr := 0
  cause := none
  nans := []
  illegal := 0
  seqErr := 0
  warn := false
  allocs := []
  frees := []
  reports := []
  after := none
  resolved := true
  log := []
  accepted := 0

/-- The descriptors of the tests: 0 the narrow one, 1 and 2 of the load slot, 3 and 4 of the store slot. -/
def agds : Tbl (BitVec 384) := [(0, agdOf 0 0 0), (1, agdOf 3 1 0), (2, agdOf 3 1 1), (3, agdOf 4 1 0), (4, agdOf 4 1 1)]

/-- Cluster 0 at work on task 1. -/
def work : Cluster := { Cluster.fresh with phase := .running, task := some 1, last := some 0, agd := agds }

/-- A die that serves, whose cluster 0 runs task 1 of the live context 0 with a tile 0, and whose cellar window is the first 2^20 bytes. -/
def busy (x : Tile) : State :=
  { with0 x with shape := { Shape.fresh with winSize := 1 }, clusters := [(0, work)], tasks := [(1, job)], taskSeq := 1,
                 ctxs := [(0, { Ctx.fresh with st := .live })] }

/-! ### Tile verbs -/

/-- Every counter verb that computes can issue; the last field names CT[7], IMM7 all ones. -/
theorem witness_CounterArithmetic :
    (∀ v ∈ [0x01, 0x02, 0x03, 0x04, 0x05, 0x06, 0x07, 0x08, 0x09, 0x0A, 0x0B, 0x0C, 0x0D, 0x10, 0x0E],
      (issuing 0 v).CanIssue p0 0 v (one 0 v)) ∧
    (issuing 0 0xFE07E1).CanIssue p0 0 1 (one 0 0xFE07E1) ∧ ∀ n ∈ (tile1 0 1).ctWait, n.2 ∉ countersOf (slotField 0 (one 0 1).word) := by
  unfold State.CanIssue; decide

theorem witness_CounterRegisters :
    (∀ v ∈ [0x0F, 0x12, 0x11], (issuing 0 v).CanIssue p0 0 v (one 0 v)) ∧ CounterReady (tile1 0 0x0F) (one 0 0x0F) := by
  unfold State.CanIssue CounterReady; decide

/-- A tile whose comparator 3 watches CT[7]. -/
def compares (rel : Nat) (signed : Bool) : Tile :=
  { Tile.fresh with cp := [(3, { ctr := 7, limit := 0x80000000, rel := rel, signed := signed })] }

theorem witness_Comparators_relations :
    ∀ r ∈ [0, 1, 2, 3], ∀ b ∈ [true, false], ((compares r b).cmp 3).rel = r ∧ ((compares r b).cmp 3).signed = b := by decide

/-- SETCP of comparator 1 on CT[7], at most, signed, the limit from CT[0]; CDST[2] and IMM7[6] set too. -/
def setcpField : Nat := 0x11 + 5 * 2 ^ 5 + (1 + 4 + 7 * 8 + 64) * 2 ^ 17

theorem witness_Comparators : (issuing 0 setcpField).CanIssue p0 0 0x11 (one 0 setcpField) ∧
    CounterReady (tile1 0 setcpField) (one 0 setcpField) ∧ (one 0 setcpField).acts 0 0 (tile1 0 setcpField) = true ∧
    ((after (.setcp p0) (with0 { tile1 0 setcpField with ct := [(0, 5), (7, 0xFFFFFFFF)] })).at_ p0).pred 1 = true := by
  unfold State.CanIssue CounterReady; decide

theorem witness_NopIssues : ∀ slot : Fin 6, (issuing slot.val 0x100000).CanIssue p0 slot.val 0 (one slot.val 0x100000) ∧
    ((issuing slot.val 0x100000).at_ p0).vact = none ∧ ((issuing slot.val 0x100000).at_ p0).blocks = [] ∧
    ((issuing slot.val 0x100000).at_ p0).lact = none ∧ ((issuing slot.val 0x100000).at_ p0).sact = none := by
  unfold State.CanIssue; decide

/-- A vector field with legal operands: SRC0 A0, DST V1, AUX V2, count CT[7]. -/
def vfield (verb : Nat) : Nat :=
  let fi := if verb = 0x04 then 4 else if 0x20 ≤ verb ∧ verb ≤ 0x27 then 6 else 5
  let fo := if verb = 0x03 then 4 else if verb = 0x1C then 1 else 5
  verb + (if verb = 0x02 then 2 ^ 15 else 0) + 8 * 2 ^ 16 + fi * 2 ^ 26 + fo * 2 ^ 29 + 7 * 2 ^ 35 + 9 * 2 ^ 38

theorem witness_VectorIssue :
    (∀ v ∈ [0x01, 0x02, 0x03, 0x04, 0x08, 0x09, 0x0A, 0x0B, 0x0C, 0x0D, 0x0E, 0x0F, 0x10, 0x11, 0x14, 0x15, 0x18, 0x19, 0x1A, 0x1C,
        0x1D, 0x20, 0x21, 0x22, 0x23, 0x24, 0x25, 0x26, 0x27, 0x40],
      (issuing 1 (vfield v)).CanIssue p0 1 v (one 1 (vfield v)) ∧ (tile1 1 (vfield v)).vact = none) := by
  unfold State.CanIssue; decide

/-- An MMA of an E4M3 pair, K in CT[0], mode word CT[1]. -/
def mfield : Nat := 1 + 2 ^ 5 + 2 ^ 8 + 5 * 2 ^ 13 + 2 ^ 34

theorem witness_MatrixIssue : (issuing 2 mfield).CanIssue p0 2 1 (one 2 mfield) ∧ (tile1 2 mfield).blocks = [] := by
  unfold State.CanIssue; decide

/-- A field of the load slot on descriptor 1, for FILL from 2 to 1; a field of the store slot on 3, for SPILL from 3 to 4. -/
def lsfield (slot verb : Nat) : Nat :=
  if slot = 3 then
    verb + (if verb = 2 ∨ verb = 4 then 2 else 1) * 2 ^ 4 + (if verb = 4 then 2 ^ 36 else 0)
  else verb + (if verb = 1 then 3 + 13 * 2 ^ 5 else 4) * 2 ^ 4 + (if verb = 2 then 3 * 2 ^ 30 else 0)

/-- A busy cluster with a field to issue. -/
def issuing' (slot field : Nat) : State := busy (tile1 slot field)

theorem witness_LoadStoreIssue :
    (∀ v ∈ [1, 2, 3, 4], (issuing' 3 (lsfield 3 v)).CanIssue p0 3 v (one 3 (lsfield 3 v))) ∧
    (∀ v ∈ [1, 2], (issuing' 4 (lsfield 4 v)).CanIssue p0 4 v (one 4 (lsfield 4 v))) ∧
    (tile1 3 1).lact = none ∧ (tile1 4 1).sact = none := by
  unfold State.CanIssue; decide +kernel

/-- An entry that can be popped. -/
def ent (data : Entry) (tok : BitVec 4) : QEntry := { data := data, tok := tok, ready := true, id := 0 }

/-- A sync field of a verb on queue end 0 for token 5 or 24 entries. -/
def sfield (verb : Nat) : Nat := verb + (if verb = 3 ∨ verb = 7 then 0 else if verb = 6 then 2 ^ 13 else 5 * 2 ^ 13) + 1 * 2 ^ 17

/-- A tile with a sync field to issue, and entries of a token at queue end 0. -/
def syncTile (verb n : Nat) (tok : BitVec 4) : Tile :=
  { tile1 5 (sfield verb) with queues := [(0, List.replicate n (ent 0 tok))], issued := [(0, 1)] }

theorem witness_SyncIssue :
    (∀ v ∈ [1, 2, 3, 4, 5, 6, 7], ∀ n ∈ [24, 40], (with0 (syncTile v n 5)).CanIssue p0 5 v (one 5 (sfield v)) ∧
      ∀ k, k < 5 → bitN (slotField 5 (one 5 (sfield v)).word) (17 + k) = true → (syncTile v n 5).drainedSlot 0 k = true) ∧
    (∃ e r, (syncTile 1 24 5).queue 0 = e :: r ∧ e.ready = true ∧ e.tok.toNat = 5) ∧
    (∃ e r, (syncTile 2 24 6).queue 0 = e :: r ∧ e.ready = true ∧ e.tok.toNat ≠ 5) ∧
    ((syncTile 5 40 5).queue 0).length + 4 * (5 + 1) ≤ 64 ∧
    (syncTile 6 0 0).pred 1 = (!bitN (sfield 6) 15) ∧ (syncTile 7 0 0).extOwed = [] := by
  unfold State.CanIssue
  refine ⟨by decide, ⟨_, _, rfl, by decide, by decide⟩, ⟨_, _, rfl, by decide, by decide⟩, by decide, by decide, by decide⟩

/-! ### Accesses and steps -/

theorem witness_Narrow_access : ∀ write ∈ [true, false],
    (issuing' 0 (if write then 0x14 else 0x13)).CanIssue p0 0 (if write then 0x14 else 0x13) (one 0 (if write then 0x14 else 0x13)) ∧
      CounterReady (tile1 0 0) (one 0 0) ∧
      (one 0 (if write then 0x14 else 0x13)).acts 0 0 (tile1 0 0) = true := by
  unfold State.CanIssue CounterReady; decide +kernel

/-- An access of a tile that is not complete. -/
def open_ (id slot : Nat) (rd wr : Option Target) (width : Nat) (ctr : Option Nat) : Access :=
  { id := id, slot := slot, seq := 0, xfer := 0, rd := rd, wr := wr, width := width, data := 0x0102, granted := false, have_ := 0,
    dests := [], ctr := ctr }

/-- A tile with one such access. -/
def accTile (a : Access) : Tile := { Tile.fresh with accs := [a], nextId := 1, ctWait := a.ctr.toList.map (fun n => (0, n)) }

/-- An access without another of its tile before it, that an ordered run of its cluster makes. -/
def ripe (a : Access) : Prop :=
  (accTile a).clear a = true ∧ (busy (accTile a)).readClash 0 0 a = false ∧ (busy (accTile a)).writeClash 0 0 a = false

theorem witness_Narrow_arrives :
    ripe (open_ 0 0 (some (.here 8)) none 4 (some 7)) ∧
    (∀ rd ∈ [Target.here 8, .suppressed],
      ((accTile (open_ 0 0 (some rd) none 4 (some 7))).accs.find? (fun a => a.slot = 0 && a.ctr.isSome)) =
        some (open_ 0 0 (some rd) none 4 (some 7))) ∧
    ((after (.ldwWordArrive p0) { busy (accTile (open_ 0 0 (some (.here 8)) none 4 (some 7))) with mem := [(8, 1), (11, 2)] }).at_ p0).counter 7
      = 0x02000001 := by
  unfold ripe; decide +kernel

theorem witness_AllocatorVerbs_ask : ∀ v ∈ [0x18, 0x19, 0x1A, 0x1B], (issuing' 0 v).CanIssue p0 0 v (one 0 v) ∧ CounterReady (tile1 0 v) (one 0 v) := by
  unfold State.CanIssue CounterReady; decide

/-- A vector verb with its field, two steps left, on one entry in each source. -/
def vtile (verb : Nat) (a b : Entry) : Tile :=
  let x : Tile := { Tile.fresh with queues := [(0, [ent a 3]), (1, [ent b 4]), (9, [ent 0 0])], ct := [(7, 2)] }
  { x with vact := some (VAct.begin x (one 1 0) (vfield verb + (if verb = 0x02 then 0 else 2 ^ 11)) true) }

/-- The verb under way. -/
def vof (verb : Nat) : VAct := VAct.begin { Tile.fresh with ct := [(7, 2)] } (one 1 0) (vfield verb + (if verb = 0x02 then 0 else 2 ^ 11)) true

/-- The premises of one elementwise step. -/
def stepsReady (verb : Nat) (two three : Bool) (s : State) (v : VAct) : Bool :=
  let x := s.at_ p0
  let f := v.fld.toNat
  [decide ((s.cluster 0).phase = .running), decide (p0.tile.val < s.tpc), decide (x.vact = some v), decide (vVerb f =
    verb), decide (v.out = []), decide (v.acc = []), decide (v.aux = []), decide (v.zeros = 0), decide (v.acts = true),
    decide (vSr f = false), decide (vAuxen f = false), decide (fmtWidth (vOut f) = fmtWidth (vIn f)), decide (s.clusterTask 0
    = none), x.uses.all (fun u => u.slot = 1), decide (((x.queue (vSrc0 f)).map (fun e => e.ready)).head? = some true), !two || vSrc1K f || (x.head (vSrc1
    f)).isSome, !three || vAuxK f || (x.head (vAux f)).isSome, decide ((x.queue (vDst f)).length < 63)].all id

theorem witness_VectorElements :
    (∀ v ∈ [0x01, 0x02, 0x0E, 0x0F, 0x15], stepsReady v false false (with0 (vtile v 1 0)) (vof v)) ∧
    (∀ v ∈ [0x08, 0x09, 0x0A, 0x0C, 0x0D, 0x10, 0x14], stepsReady v true false (with0 (vtile v 1 2)) (vof v)) ∧
    (∀ v ∈ [0x0B, 0x11], stepsReady v true true (with0 (vtile v 1 2)) (vof v)) ∧
    (vSrc1K (vof 0x02).fld.toNat && vXop (vof 0x02).fld.toNat % 2 = 0) = true := by
  decide +kernel

theorem witness_VectorIntegers :
    ∀ v ∈ [0x20, 0x21, 0x22, 0x23, 0x24, 0x25, 0x26, 0x27], stepsReady v true false (with0 (vtile v 1 2)) (vof v) := by
  decide +kernel

/-- A verb that takes F32 entries, under way for two more steps. -/
def entryV (verb fo xop : Nat) (grp : List Nat) : VAct :=
  { VAct.begin { Tile.fresh with ct := [(7, 2)] } (one 1 0)
      (verb + 8 * 2 ^ 16 + 5 * 2 ^ 26 + fo * 2 ^ 29 + 7 * 2 ^ 35 + xop * 2 ^ 46) true with grp := grp }

/-- The premises of a step on whole entries. -/
def entryReady (v : VAct) (s : State) : Bool :=
  let x := s.at_ p0
  let f := v.fld.toNat
  [decide ((s.cluster 0).phase = .running), decide (p0.tile.val < s.tpc), decide (x.vact = some v), decide (v.out = []),
    decide (v.aux = []), decide (v.zeros = 0), decide (v.acts = true), decide (vSr f = false), decide (vAuxen f = false),
    decide (vIn f = 5), decide (2 ≤ v.left), decide (vDst f ≠ vSrc0 f), decide (s.clusterTask 0 = none), x.uses.all (fun u => u.slot = 1), decide (((x.queue
    (vSrc0 f)).map (fun e => e.ready)).head? = some true), decide ((x.queue (vDst f)).length + 16 ≤ 64)].all id

/-- A tile in which a verb steps on one entry. -/
def entryTile (v : VAct) : Tile := { Tile.fresh with queues := [(0, [ent 1 3])], vact := some v }

theorem witness_VectorCombining :
    (∀ v ∈ [0x18, 0x19, 0x1A], entryReady (entryV v 5 0 []) (with0 (entryTile (entryV v 5 0 []))) ∧
      vVerb (entryV v 5 0 []).fld.toNat = v ∧ (entryV v 5 0 []).acc.length < 15) ∧
    (entryReady (entryV 0x1D 5 0 (List.replicate 240 0)) (with0 (entryTile (entryV 0x1D 5 0 (List.replicate 240 0)))) ∧
      (entryV 0x1D 5 0 (List.replicate 240 0)).acc = [] ∧ (entryV 0x1D 5 0 (List.replicate 240 0)).grp.length = 240) ∧
    (∀ xop ∈ [0, 7], entryReady (entryV 0x1C 1 xop []) (with0 (entryTile (entryV 0x1C 1 xop []))) ∧
      (entryV 0x1C 1 xop []).acc = []) := by
  decide +kernel

/-- A load or store verb under way, one step left. -/
def ls (verb agd dst : Nat) : LSAct := begun Tile.fresh (one 3 0) true verb agd agd dst 5 1 1

theorem witness_LoadStoreSteps :
    ({ Tile.fresh with lact := some (ls 3 0 0) }.queue 0).length < 64 ∧
    (let s := busy { Tile.fresh with lact := some (ls 1 1 0) }
     ((s.at_ p0).queue 0).length + widthBytes ((s.cluster 0).desc 1).width / 64 ≤ 64 ∧
       (s.at_ p0).stuck 3 = false ∧ s.tooMany 0 0 3 (ls 1 1 0) = false ∧
       s.canSend (s.target 0 0 ((s.cluster 0).desc 1) (((s.cluster 0).desc 1).addr ((s.at_ p0).position 1) 0) false) = true) ∧
    (let s := busy { Tile.fresh with sact := some (ls 1 3 13), queues := [(13, [ent 7 0])] }
     (s.at_ p0).canPop 13 (widthBytes ((s.cluster 0).desc 3).width / 64) = true ∧
       (s.at_ p0).stuck 4 = false ∧ s.tooMany 0 0 4 (ls 1 3 13) = false ∧
       s.canSend (s.target 0 0 ((s.cluster 0).desc 3) (((s.cluster 0).desc 3).addr ((s.at_ p0).position 3) 0) true) = true) := by
  decide +kernel

theorem witness_ReadsReturn :
    (∀ wr ∈ [none, some (Target.here 128)], ∀ rd ∈ [Target.here 64, .suppressed],
      nthAccess (accTile (open_ 0 3 (some rd) wr 64 none)) 3 0 = some (open_ 0 3 (some rd) wr 64 none) ∧
        ripe (open_ 0 3 (some rd) wr 64 none)) := by
  unfold ripe; decide +kernel

theorem witness_WritesLand :
    (∀ wr ∈ [Target.here 64, .suppressed],
      nthAccess (accTile (open_ 0 4 none (some wr) 64 none)) 4 0 = some (open_ 0 4 none (some wr) 64 none) ∧
        ripe (open_ 0 4 none (some wr) 64 none) ∧ memWf [(64, 1), (2 ^ 40, 2)] = true) ∧
    ((after (.writeVisible p0 4 0) { busy (accTile (open_ 0 4 none (some (.here 64)) 64 none)) with mem := [(64, 1), (67, 9)] }).mem
      = [(64, 2), (65, 1)]) := by
  unfold ripe; decide +kernel

/-- A block of K k steps of F32 result, `k` of them done. -/
def block (K k closed : Nat) (sums : List Nat) (escArrived : Bool) : Block :=
  { fld := BitVec.ofNat 40 (1 + 2 ^ 5 + 2 ^ 8 + 5 * 2 ^ 13), mode := 0, K := K, seq := 0, addr := 0, acts := true, k := k, aLeft := [],
    bLeft := [], ops := [], start := [], sco := [], sca := [], scb := [], gsa := [], gsb := [], gsFor := 0, sums := sums,
    closed := closed, escArrived := escArrived, escA := [], escB := [], tok := 0, out := [], filled := false, flagged := false }

theorem witness_MatrixSteps :
    (let x : Tile := { Tile.fresh with blocks := [block 40 1 0 [] true], queues := [(4, [ent 3 0]), (5, [ent 4 0])] }
     let b := block 40 1 0 [] true
     let f := b.fld.toNat
     let m := b.mode.toNat
     x.blocks.find? (fun o => o.k < o.K) = some b ∧ b.levelDone = true ∧ b.scqDone = true ∧ b.groupFull = false ∧ mSca m < 2 ∧
       mScb m < 2 ∧ b.k / mG f ≤ b.closed ∧ x.head 4 = some (ent 3 0) ∧ x.head 5 = some (ent 4 0) ∧ mScq m ≠ 4 ∧ mScq m ≠ 5 ∧
       b.k + 1 ≠ b.K ∧ b.k + 1 ≠ (b.closed + 1) * mG f ∧ (x.blocks.head?.map (fun e => e.seq)) = some b.seq) ∧
    (let e := { block 32 32 1 [] true with seq := 5 }
     ([e, block 40 1 0 [] true].find? (fun o => o.k < o.K) = some (block 40 1 0 [] true)) ∧ e.seq ≠ 0 ∧ e.levelDone = true ∧
       e.groupFull = false) ∧
    ([block 40 32 1 [] false].find? (fun o => !o.escArrived) = some (block 40 32 1 [] false)) := by
  decide +kernel

/-- A check of a lane whose products are exact and whose cells sum to its checksum cell's value. -/
def exactCheck : LaneCheck := { exempt := false, num := 0, den := 1, bound := 0, bden := 1 }

/-- An upset that moves the row check of column 15 and the column check of row 0. -/
def upset15 : Verdict := { rowCheck := some { lane := 15, mant := 1, exp := 0 }, colCheck := some { lane := 0, mant := 1, exp := 0 } }

/-- Tile 0 with a closed group to be checked; its run goes on, or a NaN event has stopped it. -/
def checks (tk : Task) : State :=
  { busy { Tile.fresh with verdicts := [List.replicate 32 exactCheck] } with tasks := [(1, tk)] }

/-- A k step in the first cycle after a release, once two of the eight ACLK cycles of a window have made theirs, is withheld. -/
theorem witness_MatrixSteps_withheld :
    let x : Tile := { Tile.fresh with blocks := [block 40 1 0 [] true], queues := [(4, [ent 3 0]), (5, [ent 4 0])], kAt := 1000, kCount := 4 }
    let s := { busy x with now := 1000, clusters := [(0, { work with softAt := 1000 })] }
    s.withheld 0 0 = true ∧ s.clusterCtx 0 = some 0 ∧ Tbl.get 0 ((after (.mmaKStep p0) s).ctx 0).stall 26 = 1 ∧
      { s with now := 2000 }.withheld 0 0 = false := by
  decide +kernel

theorem witness_ChecksumVerdicts :
    (exactCheck.fails (.fin 0 1) = false ∧ { exactCheck with num := -3, bound := 5, bden := 2 }.fails (.fin 0 1) = true ∧
      { exactCheck with num := -3, bound := 3 }.fails (.fin 0 1) = false) ∧
    ((∀ l, l < 32 → ((List.replicate 32 exactCheck)[l]?).map (fun k => k.fails (Deviation.at_ none (l % 16))) = some false) ∧
      ((after (.checksumVerdict p0 { rowCheck := none, colCheck := none } .clean) (checks job)).at_ p0).verdicts = []) ∧
    (exactCheck.fails (Deviation.at_ upset15.rowCheck 15) = true ∧ exactCheck.fails (Deviation.at_ upset15.colCheck 0) = true ∧
      (∀ l, l < 15 → exactCheck.fails (Deviation.at_ upset15.rowCheck l) = false) ∧
      ((after (.checksumVerdict p0 upset15 .clean) (checks job)).task? 1).map (fun t => t.cause) = some (some (.fault 1 15 0 0)) ∧
      ((after (.checksumVerdict p0 upset15 .clean) (checks { job with life := .aborting, cause := some .nan })).task? 1).map
        (fun t => t.cause) = some (some (.fault 1 15 0 0))) := by
  decide +kernel

theorem witness_BlocksDrain :
    (let b := block 32 32 1 (List.replicate 256 0) true
     b.K ≤ b.k ∧ b.groups ≤ b.closed ∧ b.levelDone = true ∧ b.groupFull = false ∧ mOut b.fld.toNat = 5 ∧
       intSums b.fld.toNat b.mode.toNat = false ∧ mSco b.mode.toNat = false ∧ bitN b.fld.toNat 27 = false ∧ bitN b.fld.toNat 30 = false) ∧
    ((after (.blockDrain p0) (with0 { Tile.fresh with blocks := [block 32 32 1 (List.replicate 256 0) true] })).at_ p0).blocks = [] := by
  decide +kernel

/-! ### Sequencer, mailboxes and barriers -/

/-- A clause header word: punctuation, SEQCTL operation and argument. -/
def head_ (punct op arg : Nat) : BitVec 256 := BitVec.ofNat 256 (punct * 2 ^ 9 + op * 2 ^ 11 + arg * 2 ^ 14)

/-- A busy cluster that stands at a step of clause `n` of a paragraph. -/
def at_ (para : List (BitVec 256)) (n : Nat) (step : SeqStep) (f : Cluster → Cluster) : State :=
  { busy Tile.fresh with clusters := [(0, f { work with para := para, next := n, step := step, fetched := para.length })] }

theorem witness_ClauseBroadcasts :
    let s := at_ [head_ 0 0 0, head_ 1 0 0] 0 .body id
    StandsAt (s.cluster 0) .body 0 ∧ (s.cluster 0).next + 1 < (s.cluster 0).para.length ∧ s.clauseThere 0 = true ∧
      (let s' := at_ [head_ 0 0 0, head_ 1 0 0] 0 .body (fun x => { x with fetched := 0 })
       s'.clauseThere 0 = false ∧ Tbl.get 0 ((after (.clauseBroadcast 0) s').ctx 0).stall 31 = 1) ∧
      (∀ i, i < 16 → (s.tile 0 i).clauseQ.length < 256) ∧
      ((after (.clauseBroadcast 0) s).tile 0 15).clauseQ.map (fun c => c.mask.toNat) = [0xFFFF] := by
  unfold StandsAt; decide +kernel

/-- A paragraph with a SEQCTL operation on value 31 between two plain clauses, and ENDL at the end. -/
def para3 (op : Nat) : List (BitVec 256) := [head_ 0 0 0, head_ 0 op 31, head_ 0 0 0, head_ 0 2 0, head_ 0 0 0]

theorem witness_SequencerControl :
    (∀ op ∈ [1, 2, 6], StandsAt ((at_ (para3 op) 1 .post id).cluster 0) .post op) ∧
    StandsAt ((at_ (para3 3) 1 .pre id).cluster 0) .pre 3 ∧
    (valueOf ((at_ (para3 1) 1 .post (fun x => { x with sv := [(31, 1)] })).cluster 0) 31).toNat ≠ 0 ∧
    (valueOf ((at_ (para3 1) 1 .post id).cluster 0) 31).toNat = 0 ∧ matchEndl ((para3 1).drop 2) 2 0 = some 3 ∧
    ((after (.loop 0) (at_ (para3 1) 1 .post id)).cluster 0).next = 4 ∧
    ((after (.endl 0) (at_ (para3 1) 3 .post (fun x => { x with loops := [{ body := 2, left := 2, last := 3 }] }))).cluster 0).next = 2 ∧
    ((after (.endl 0) (at_ (para3 1) 3 .post (fun x => { x with loops := [{ body := 2, left := 1, last := 3 }] }))).cluster 0).next = 4 ∧
    ((after (.mask 0) (at_ (para3 3) 1 .pre (fun x => { x with sv := [(31, 0x18001)] }))).cluster 0).mask = 0x8001 ∧
    ((after (.endPara 0) (at_ (para3 6) 1 .post id)).cluster 0).paraEnded = true := by
  unfold StandsAt; decide +kernel

theorem witness_SequencerErrors :
    let eight := List.replicate 8 ({ body := 1, left := 1, last := 3 } : Loop)
    (StandsAt ((at_ (para3 1) 1 .post (fun x => { x with loops := eight })).cluster 0) .post 1 ∧ 8 ≤ eight.length) ∧
    StandsAt ((at_ (para3 2) 1 .post id).cluster 0) .post 2 ∧
    (StandsAt ((at_ (para3 4) 1 .post (fun x => { x with sv := [(31, 1)] })).cluster 0) .post 4 ∧ job.total ≤ bitsN 1 0 12) ∧
    ((after (.loop 0) (at_ (para3 1) 1 .post (fun x => { x with loops := eight }))).cluster 0).seqCause = 2 ∧
    ((after (.send 0) (at_ (para3 4) 1 .post (fun x => { x with sv := [(31, 1)] }))).cluster 0).seqCause = 4 := by
  unfold StandsAt; decide +kernel

/-- A busy cluster 0 whose task also holds cluster 1, and a cluster of die 2. -/
def pair (step : SeqStep) (punct : Nat) : State :=
  let x := { work with para := para3 4, next := 1, step := step, punct := punct, sv := [(31, 1)] }
  { busy Tile.fresh with
    clusters := [(0, x), (1, { x with rel := 1 })],
    tasks := [(1, { job with clusters := [0, 1], started := [0, 1], total := 3, layout := [(0, 2), (2, 1)],
                             reports := [(0, 1, false), (2, 0, true)] })] }

theorem witness_Mail_sends :
    (StandsAt ((pair .post 0).cluster 0) .post 4 ∧ dieOf 1 [(0, 2), (2, 1)] = some 0 ∧ (pair .post 0).clusterOf 1 1 = some 1 ∧
      ((pair .post 0).cluster 1).mbox = [] ∧ dieOf 2 [(0, 2), (2, 1)] = some 2) ∧
    ((after (.send 0) (pair .post 0)).cluster 1).mbox.map (fun m => m.src) = [0] := by
  unfold StandsAt; decide +kernel

/-- The same sender with another destination, or in another state of its SEND. -/
def sendsTo (dest : Word) (posted : Nat) (mbox : List Msg) : State :=
  let s := pair .post 0
  { s with clusters := [(0, { s.cluster 0 with sv := [(31, dest)], posted := posted }), (1, { s.cluster 1 with mbox := mbox })] }

theorem witness_Mail_waits :
    (((sendsTo 1 0 (List.replicate 16 { src := 0, w1 := 0, w2 := 0, w3 := 0, avail := true })).cluster 1).mbox.length = 16 ∧
      Tbl.get 0 ((after (.send 0) (sendsTo 1 0 (List.replicate 16 { src := 0, w1 := 0, w2 := 0, w3 := 0, avail := true }))).ctx 0).stall 30 = 1) ∧
    ((after (.send 0) (sendsTo 2 0 [])).linkOut.map Prod.fst = [2] ∧ ((after (.send 0) (sendsTo 2 0 [])).cluster 0).posted = 1 ∧
      Tbl.get 0 ((after (.send 0) (sendsTo 2 1 [])).ctx 0).stall 30 = 1 ∧ ((after (.send 0) (sendsTo 2 2 [])).cluster 0).sent = 1) := by
  decide +kernel

/-- A mailbox message. -/
def msg (src : Nat) (avail : Bool) : Msg := { src := src, w1 := 11, w2 := 12, w3 := 13, avail := avail }

/-- A cluster at RECV whose mailbox holds a message that is on its way before one that is there. -/
def receives (src : Word) : State :=
  at_ (para3 5) 1 .pre (fun x => { x with sv := [(31, src)], mbox := [msg 0 false, msg 0 true] })

/-- The cluster after it received from any sender. -/
def received : Cluster := (after (.recv 0) (receives 0xFFF)).cluster 0

theorem witness_Mail_arrives :
    (StandsAt ((receives 0).cluster 0) .pre 5 ∧ StandsAt ((receives 0xFFF).cluster 0) .pre 5) ∧
    received.mbox.map (fun m => m.avail) = [false] ∧ valueOf received 0 = 11 ∧ valueOf received 34 = 13 ∧
    (∀ o ∈ [msg 0 true], o.src = (msg 0 false).src → o.avail = true) := by
  unfold StandsAt; decide +kernel

theorem witness_Barriers :
    (let s := at_ [head_ 1 0 0] 0 .barrier id
     (s.cluster 0).step = .barrier ∧ s.allDrained 0 = true ∧ ((after (.barrierArrive 0) s).cluster 0).punct = 1) ∧
    ((after (.commaRelease 0) (pair .arrived 1)).cluster 0).commas = 1 ∧
    (let s := pair .arrived 2
     (∀ d ∈ [0, 1], d / 4 = 0 → (s.cluster d).step = .arrived ∧ 2 ≤ (s.cluster d).punct) ∧
       ((after (.semicolonRelease 0) s).cluster 0).regEpoch = 1 ∧ ((after (.semicolonRelease 0) s).cluster 1).regEpoch = 1) ∧
    (let s := pair .arrived 3
     (∀ k, s.task? 1 = some k → k.master = 0 ∧ (∀ d ∈ k.layout, 1 ≤ (k.reported d.1).1 ∨ (k.reported d.1).2 = true) ∧
        ∃ d ∈ k.layout, (k.reported d.1).2 = false) ∧
       ((after (.fullStopRelease 1) s).cluster 0).stopEpoch = 1 ∧ ((after (.fullStopRelease 1) s).cluster 1).stopEpoch = 1 ∧
       (((after (.fullStopRelease 1) s).task? 1).map (fun x => x.stops)) = some 1) := by
  refine ⟨by decide +kernel, by decide +kernel, by decide +kernel, ?_⟩
  refine ⟨?_, by decide +kernel, by decide +kernel, by decide +kernel⟩
  intro k hk
  cases hk
  decide +kernel

/-! ### Tasks, commits and faults -/

/-- A live object of context 0 on this die: tier, home 0, size, first granules. -/
def thing (tier size base0 base1 : Nat) (committed : Bool) : Obj :=
  { Obj.fresh with st := .live, tier := tier, size := size, base0 := base0, base1 := base1, committed := committed, gen := 1 }

/-- A larder object that holds a paragraph image of one directory entry: the paragraph at byte 64, one clause. -/
def loads : State :=
  { busy Tile.fresh with
    clusters := [(0, { work with phase := .loading })],
    objs := [(0, thing 1 4096 0 0 false)],
    mem := [(2 ^ 40, 1), (2 ^ 40 + 4, 1), (2 ^ 40 + 16, 64), (2 ^ 40 + 64, 1), (2 ^ 40 + 68, 0x0F), (2 ^ 40 + 64 + 64 + 124, 9),
            (2 ^ 40 + 64 + 1728 + 31, 0x80)] }

/-- Cluster 0 after the load. -/
def loaded : Cluster := (after (.paragraphLoad 0) loads).cluster 0

/-- A cluster that loads, with no paragraph at its place; one whose paragraph lies in the cellar. -/
theorem witness_ParagraphLoads_elsewhere :
    (let s : State := { loads with mem := [] }
     s.clusterTask 0 = some job ∧ s.paraInCellar job = none ∧ s.onTheWay (fun g => g.paraOf 0) = false ∧ s.mails = [] ∧
       s.paragraphAt 0 job.paraSlot job.paraVer 0 = none ∧ (s.cluster 0).next = 0 ∧ (s.cluster 0).spare.release = false ∧
       ((after (.paragraphLoad 0) s).cluster 0).seqCause = 5) ∧
    (let s : State := { loads with
       objs := [(0, thing 2 4096 0 0 false)], mem := loads.mem.map (fun c => (c.1 - 2 ^ 40 + 2 ^ 50, c.2)) }
     (s.obj job.paraSlot).tier = 2 ∧ (s.cluster 0).asked = false ∧ s.cellarLost = false ∧ s.paraInCellar job = some 0 ∧
       s.paragraphAt 0 job.paraSlot job.paraVer 0 = some (64, 1) ∧
       ((List.range 29).all (fun i => s.inWindow (64 * i))) = true ∧ ((after (.paragraphLoad 0) s).cluster 0).asked = true) := by
  decide +kernel

theorem witness_ParagraphLoads :
    (loads.clusterTask 0 = some job ∧ (loads.cluster 0).phase = .loading ∧ bitsN job.desc.toNat 48 4 = loads.die ∧
      loads.paragraphAt loads.die job.paraSlot job.paraVer 0 = some (64, 1)) ∧
    loaded.phase = .running ∧ loaded.mask = 0x0F ∧ valueOf loaded 31 = 9 ∧ loaded.para.map (fun w => w.toNat) = [2 ^ 255] := by
  decide +kernel

/-- A cluster whose paragraph has ended, with two entries left in a queue of tile 0. -/
def ending : State :=
  { busy { Tile.fresh with queues := [(0, [ent 1 0, ent 2 0])] } with clusters := [(0, { work with paraEnded := true })] }

theorem witness_ClusterEnds :
    ((ending.cluster 0).phase = .running ∧ (ending.cluster 0).paraEnded = true ∧ ending.allDrained 0 = true ∧
      (∀ i, i < 16 → (ending.tile 0 i).accs = [] ∧ (ending.tile 0 i).verdicts = [] ∧ (ending.tile 0 i).ctWait = [] ∧
        (ending.tile 0 i).blocks = []) ∧ (∀ p ∈ ending.tasks, p.2.after = none)) ∧
    ((after (.clusterEnd 0) ending).tile 0 0).residue = 2 := by
  decide +kernel

theorem witness_AllocatorVerbs_result :
    let s : State := { busy { Tile.fresh with ctWait := [(0, 7)] } with clusters := [(0, { work with ares := [(0, 7, 9)] })] }
    (s.cluster 0).areq = [] ∧ (s.cluster 0).ares = [(0, 7, 9)] ∧ ((after (.allocatorResultArrive p0) s).at_ p0).counter 7 = 9 := by
  decide +kernel

/-- A task that has ended everywhere, writing version 1 of object 2. -/
def done_ : Task :=
  { job with reports := [(0, 0, true)], named := [{ idx := 0, die := 0, slot := 2, output := true, ver := true, bound := none }] }

/-- A die whose task 1 can commit. -/
def commits (life : Life) (rs : List CommitRec) : State :=
  { busy Tile.fresh with
    clusters := [(0, { work with phase := .ended })], tasks := [(1, { done_ with life := life })], commits := rs,
    objs := [(2, { thing 1 64 0 1 true with writer := some 1 })] }

/-- A commit record of task 1, sealed or not. -/
def rec1 (crcOk : Bool) : CommitRec :=
  let r := done_.commitRec []
  if crcOk then r else { r with crc := r.crc ^^^ 1 }

theorem witness_TaskCommits :
    ((commits .running []).task? 1 = some done_ ∧ 1 = taskKey done_.die done_.seq ∧ done_.die = (commits .running []).die ∧
      (commits .running []).endedEverywhere done_ = true ∧ (commits .running []).turnToCommit done_ = true ∧
      (commits .running []).commitsHere 1 done_ = true) ∧
    (after (.taskCommit 1 2) (commits .running [])).commits.map (fun r => (r.task, r.st, r.ok)) = [(1, 1, true)] ∧
    (after (.taskCommit 1 3) (commits .running [])).commits.map (fun r => (r.task, r.st, r.ok)) = [(1, 2, true)] ∧
    (after (.taskCommit 1 1) (commits .running [])).commits.map (fun r => (r.task, r.st)) = [(1, 1)] ∧
    (after (.taskCommit 1 0) (commits .running [])).task? 1 = none ∧
    ((after (.taskCommit 1 0) (commits .running [])).obj 2).vsel = true ∧
    (let r : CommitRec := { rec1 true with task := 9 }
     let s := commits .running (List.replicate 512 r)
     (s.commits.all (fun q => q.task ≠ 1)) = true ∧ (after (.taskCommit 1 0) s).fullSeen = true) ∧
    (∀ ok ∈ [true, false], (rec1 ok).ok = ok ∧ (commits .committing [rec1 ok]).commits.find? (fun q => q.task = 1) = some (rec1 ok)) ∧
    (after (.commitRedo 1) (commits .committing [rec1 true])).redo = 1 ∧
    (after (.commitRedo 1) (commits .committing [rec1 false])).badCrc = 1 := by
  decide +kernel

/-- The same task with an output of die 2. -/
def far_ : Task := { done_ with objs := [(0x120002, true)], named := [] }

/-- The same task as a guest of die 2; and as this die's, its one output an object of die 2, which commits it where that object is a
committed one: of that a free value tells. -/
theorem witness_TaskCommits_elsewhere :
    (let s := { commits .running [] with tasks := [(1, { done_ with die := 2, named := [] })] }
     s.outputsOf 1 { done_ with die := 2, named := [] } = [] ∧ s.endedEverywhere { done_ with die := 2, named := [] } = true ∧
       (after (.taskCommit 1 0) s).task? 1 = none) ∧
    ((Config.freeWord 0).getLsbD 0 = true → (commits .running []).commitsHere 1 far_ = false) := by
  refine ⟨by decide +kernel, fun h => ?_⟩
  have o : (commits .running []).outputsOf 1 far_ = [] := by decide +kernel
  have off : (commits .running []).offCommitDie far_ = 2 := by decide +kernel
  have f : far_.objs.find? (fun e => e.2 && !decide (handleDie e.1 = (commits .running []).die)) = some (0x120002, true) := by decide +kernel
  have d : (far_.die = (commits .running []).die) ∧ handleDie 0x120002 ≠ (commits .running []).die := by decide +kernel
  have h' : (Config.freeWord (commits .running []).free).getLsbD 0 = true := h
  simpa [State.commitsHere, State.commitDie, o, off, f, h', d.1] using d.2

/-- The power domains of region 0's clusters, ON. -/
def region0On : Tbl Domain :=
  ((List.range 16) ++ [128, 129, 130, 131, 160, 161, 162, 163, 192]).map (fun d => (d, { Domain.fresh with st := 2 }))

/-- Region 0 in one partition, powered; task 1 of context 0 at the head of queue 0, waiting for the fence in slot 3 to reach
`want`, where that is not 0; `fence` is the byte at the top of the fence's word. -/
def waiting (want : Nat) (fence : Byte) (st : QSt) (life : Life) : State :=
  { busy Tile.fresh with
    clusters := [], shape := { Shape.fresh with regionEn := 1 }, power := { State.reset.power with domains := region0On },
    mem := if fence = 0 then [] else [(2 ^ 40 + 7, fence)],
    objs := [(2, { thing 1 64 1 2 true with writer := some 9 }), (3, { thing 1 64 0 0 false with fence := true })],
    tasks := [(1, { job with
      life := life, clusters := [], started := [], resolved := false,
      desc := BitVec.ofNat 512 (2 ^ 16 + (if want = 0 then 0 else 0x100003 * 2 ^ 320 + want * 2 ^ 352)) })],
    queues := [(0, { HostQ.fresh with st := st, waiting := [1] })] }

/-- The same, its task naming as output an object that another task writes. -/
def holding : State :=
  let s := waiting 0 0 .open_ .pending
  { s with tasks := [(1, { job with life := .pending, clusters := [], started := [], resolved := false, desc := BitVec.ofNat 512 (2 ^ 16),
                                    objs := [(0x100002, true)] }), (9, { job with seq := 9, queue := 1 })] }

theorem witness_TaskDispatches :
    (let s := waiting 0 0 .open_ .pending
     s.mayDispatch = true ∧ s.head 0 = .ready 1 ∧ s.before 0 = false ∧ 1 = taskKey job.die job.seq) ∧
    (waiting 5 0 .open_ .pending).head 0 = .wait 1 ∧ holding.head 0 = .held 1 ∧ (waiting 5 0x80 .open_ .pending).head 0 = .poisoned 1 ∧
    ((after (.taskDispatch 0) (waiting 0 0 .open_ .pending)).cluster 0).task = some 1 ∧
    ((after (.taskDispatch 0) (waiting 5 0 .open_ .pending)).queue 0).block = 1 ∧
    ((after (.taskDispatch 0) holding).queue 0).block = 2 ∧
    (after (.taskDispatch 0) (waiting 5 0x80 .open_ .pending)).task? 1 = none := by
  decide +kernel

/-- Queue 0 was served last, so queue 1, whose head may go too, stands before it. -/
theorem witness_TaskDispatches_later :
    let s := { waiting 0 0 .blocked .pending with
      tasks := (waiting 0 0 .blocked .pending).tasks ++ [(2, { job with
        seq := 2, queue := 1, life := .pending, clusters := [], started := [], resolved := false, desc := BitVec.ofNat 512 (2 ^ 16) })]
      queues := [(0, { HostQ.fresh with st := .blocked, block := 2, waiting := [1] }), (1, { HostQ.fresh with st := .open_, waiting := [2] })] }
    s.head 0 = .ready 1 ∧ s.before 0 = true ∧ (after (.taskDispatch 0) s).queue 0 = { s.queue 0 with st := .open_, block := 0 } := by
  decide +kernel

/-- Task 1 has ended in cluster 0, and task 2 follows it there. -/
def follows : State :=
  { waiting 0 0 .open_ .running with
    clusters := [(0, { work with phase := .ended })],
    tasks := [(1, { job with started := [0] }), (2, { job with seq := 2, after := some 1, started := [], clusters := [0] })],
    queues := [(0, { HostQ.fresh with st := .open_ })] }

theorem witness_FollowOnStarts :
    (follows.mayDispatch = true ∧ follows.usable 0 = true ∧ follows.endedFor 1 0 = true ∧ follows.policy 0 = 0 ∧
      (follows.tasks.find? (fun o => o.2.after = some 1 && o.2.queue = 0 && o.2.die = follows.die)).map Prod.fst = some 2) ∧
    (let s := { follows with tasks := [(1, { job with started := [0] }), (2, { job with
       seq := 2, after := some 1, started := [0], clusters := [0], life := .held })] }
     ((after (.followOnStart 0 0) s).task? 2).map (fun t => (t.life, t.started)) = some (.running, [0])) ∧
    ((after (.followOnStart 0 0) follows).cluster 0).task = some 2 := by
  decide +kernel

/-- A cluster that wipes its stores since cycle 0, 500 cycles later. -/
def wipes : State :=
  { busy Tile.fresh with now := 500, clusters := [(0, { work with phase := .wiping })], mem := [(5, 1), (16 * 2 ^ 20, 2), (2 ^ 40 + 9, 3)] }

/-- A cluster whose stage buffer is to be filled from a weight object in the cellar. -/
def stages : State :=
  { busy Tile.fresh with
    clusters := [(0, { work with phase := .staging, stageFor := some 1, stagePaid := 65536 })],
    shape := { Shape.fresh with winSize := 1, larderRoom := [(0, 7)] },
    mem := [(2 ^ 50 + 3, 0xAB)], objs := [(4, thing 2 0x100000 0 0 false)],
    tasks := [(1, { job with named := [{ idx := 66, die := 0, slot := 4, output := false, ver := false, bound := none }] })] }

theorem witness_StoresPrepared :
    ((wipes.cluster 0).phase = .wiping ∧ (wipes.cluster 0).startAt + 500 ≤ wipes.now ∧ (after (.wipeDone 0) wipes).mem = [] ∧
      ((after (.wipeDone 0) wipes).cluster 0).phase = .loading) ∧
    ((stages.obj 4).tier = 2 ∧ stages.larderWork 0 / 4 ≤ (stages.obj 4).size ∧ memWf stages.mem = true ∧
      memGet (after (.stageCopyDone 0 true) stages).mem (larderAt 0 (3 * (stages.larderWork 0 / 4) + 3)) = 0xAB ∧
      ((after (.stageCopyDone 0 false) stages).task? 1).map (fun t => t.life) = some .aborting) := by
  decide +kernel

theorem witness_LimitsAndCycles_limits :
    (let s := { busy Tile.fresh with now := 125 }
     let tk := { job with desc := BitVec.ofNat 512 (2 ^ 128) }
     (s.cluster 0).startAt + bitsN tk.desc.toNat 128 16 * 125 ≤ s.now ∧
       ((after (.budgetExpire 0) { s with tasks := [(1, tk)] }).task? 1).map (fun x => x.cause) = some (some .budget) ∧
       (let h := { s with tasks := [(1, { tk with life := .aborting, cause := some .followOn })], clusters := [(0, { work with phase := .stopped })] }
        ((after (.budgetExpire 0) h).task? 1).map (fun x => x.cause) = some (some .budget))) ∧
    (let s := waiting 5 0 .blocked .pending
     let s := { s with now := 125000000, queues := Tbl.mapVals (fun _ y => { y with block := 1 }) s.queues }
     (s.task? 1).map (fun t => t.waits.map s.waitOf) = some [0] ∧
       (s.queue 0).waiting = [1] ∧ (s.queue 0).st = .blocked ∧ (s.queue 0).blockedAt + (s.queue 0).waitLimit * 125000 ≤ s.now ∧
       (after (.waitLimitExpire 0) s).task? 1 = none) := by
  decide +kernel

/-- Two queues that wait for each other's fences, since cycle 0. -/
def cycle : State :=
  let s := waiting 5 0 .blocked .pending
  let tk (n : Nat) (fence signal : Nat) : Task :=
    { job with life := .pending, seq := BitVec.ofNat 32 n, queue := n - 1, clusters := [], started := [], resolved := false,
               desc := BitVec.ofNat 512 (2 ^ 16 + signal * 2 ^ 224 + 5 * 2 ^ 256 + fence * 2 ^ 320 + 5 * 2 ^ 352) }
  { s with now := 125000, scanAt := 0, taskSeq := 2,
           objs := [(3, { thing 1 64 0 0 false with fence := true }), (4, { thing 1 64 0 1 false with fence := true })],
           tasks := [(1, tk 1 0x100003 0x100004), (2, tk 2 0x100004 0x100003)],
           queues := [(0, { HostQ.fresh with st := .blocked, block := 1, waiting := [1] }),
                      (1, { HostQ.fresh with st := .blocked, block := 1, waiting := [2] })] }

theorem witness_LimitsAndCycles_cycles :
    cycle.scanAt + 125000 ≤ cycle.now ∧ { cycle with now := 124999 }.now < cycle.scanAt + 125000 ∧
    (cycle.victim [0, 1]).isSome = true ∧ cycle.scanCycles < 65535 ∧ cycle.scanCycles < (after .waitCycleScan cycle).scanCycles := by
  decide +kernel

theorem witness_ContextsLost :
    (let s := { busy Tile.fresh with now := 12500000 }
     (s.ctx 0).master = 0 ∧ (s.ctx 0).st = .live ∧ Tbl.get 0 s.hbAt 0 + Tbl.get 0x64 s.hbLimit 0 * 125000 ≤ s.now ∧
       ((after (.heartbeatMiss 0) s).ctx 0).cause = 4) ∧
    (let s : State := { with0 Tile.fresh with ctxs := [(5, { Ctx.fresh with st := .lost, poisonDue := true })],
                                              objs := [(3, { thing 1 64 0 0 false with fence := true, owner := 5 })] }
     (s.ctx 5).poisonDue = true ∧ s.tasksOf s.die 5 = [] ∧ 2 ^ 63 ≤ (after (.fencePoison 5) s).fenceWord 3) ∧
    (let s : State := { with0 Tile.fresh with mem := [(2 ^ 40 + 4096, 7)], objs := [(65535, { thing 1 64 1 0 false with st := .reclaim, gen := 0 })] }
     (s.obj 65535).st = .reclaim ∧ (after (.reclaimDone 65535) s).mem = [] ∧ ((after (.reclaimDone 65535) s).obj 65535).st = .retired) := by
  decide +kernel

/-- Task 1 aborted for a cause, its run drained. -/
def aborted (cause : EndCause) (used : Bool) : State :=
  { busy Tile.fresh with clusters := [(0, { work with phase := .stopped })],
                         tasks := [(1, { job with life := .aborting, cause := some cause, used := used })] }

theorem witness_AbortsEnd :
    (∀ c ∈ [EndCause.budget, .nan, .fault 11 0 0 31], (aborted c false).drainedRun 1 = true) ∧
    (∀ c ∈ [EndCause.budget, .nan], (after (.abortDrainEnd 1) (aborted c false)).task? 1 = none) ∧
    ((after (.abortDrainEnd 1) (aborted (.fault 11 0 0 31) false)).task? 1).map (fun x => x.life) = some .held ∧
    (aborted (.fault 11 0 0 31) true).drainedRun 1 = true ∧
    (after (.abortDrainEnd 1) (aborted (.fault 11 0 0 31) true)).task? 1 = none ∧
    (let s := { aborted .budget false with tasks := [(1, { job with life := .aborting, cause := some .budget, die := 2 })] }
     (after (.abortDrainEnd 1) s).linkOut = [(2, .abort 1 true)] ∧
       ((after (.abortDrainEnd 1) s).task? 1).map (fun x => x.life) = some .held) := by
  decide +kernel

/-- Task 1 held for its re-run after a fault. -/
def heldTask1 : State :=
  { busy Tile.fresh with clusters := [(0, { work with phase := .stopped })],
                         tasks := [(1, { job with life := .held, cause := some (.fault 11 0 0 31), used := true })] }

theorem witness_FaultsAndReruns :
    ((after (.networkFault 1) (busy Tile.fresh)).task? 1).map (fun x => x.cause) = some (some (.fault 11 0 0 31)) ∧
    (heldTask1.faults.stopped = false ∧ heldTask1.faults.thermal = false ∧ (heldTask1.cluster 0).task = some 1 ∧
      ((after (.rerunRelease 1) heldTask1).task? 1).map (fun x => (x.life, x.rerun)) = some (.running, true)) := by
  decide +kernel

/-- Cluster 0 copies the shelf of tile 15 to its spare. -/
def copies : State :=
  { busy Tile.fresh with clusters := [(0, { work with phase := .stopped })], mem := [(15 * 2 ^ 20 + 4, 9)],
                         tasks := [(1, { job with life := .copying, used := true, cause := some (.fault 1 0 0 15) })] }

/-- An idle cluster 0 whose spare stands for tile 15 and is copied back. -/
def copiesBack : State :=
  { with0 Tile.fresh with
    clusters := [(0, { Cluster.fresh with
      phase := .copying, spare := { target := 15, active := true, fused := false, release := true, count := 1 } })],
    mem := [(16 * 2 ^ 20 + 4, 9)], power := { State.reset.power with domains := region0On } }

theorem witness_Spares :
    (memWf copies.mem = true ∧ ((after (.spareCopyDone 0 none) copies).cluster 0).phys 15 = 16 ∧
      memGet (after (.spareCopyDone 0 none) copies).mem (shelfAt 16 4) = 9) ∧
    (copiesBack.unusable 0 31 = false ∧ (copiesBack.cluster 0).spare.active = true ∧ (copiesBack.cluster 0).spare.fused = false) ∧
    (memWf copiesBack.mem = true ∧ ((after (.spareCopyBackDone 0 true) copiesBack).cluster 0).phys 15 = 15 ∧
      memGet (after (.spareCopyBackDone 0 true) copiesBack).mem (shelfAt 15 4) = 9) := by
  decide +kernel

/-! ### Ports and host commands -/

/-- A granule request of access `id` of tile 0. -/
def granule (wr : Option Entry) : Gran := { addr := 128, wr := wr, src := .access 0 0 0, cls := 0 }

/-- A die whose cellar port 0 has an access of tile 0 out under tag 3 since cycle 0. -/
def tagged (rd wr : Option Target) (g : Gran) (now : Nat) : State :=
  { busy (accTile (open_ 0 3 rd wr 64 none)) with
    now := now, cellar := [(0, { CellarPort.fresh with tags := [{ tag := 3, gran := g, at_ := 0 }], rdQ := [granule none] })] }

/-- A cluster whose tile 0 offers a cellar read. -/
def offersOne : State :=
  { busy (accTile (open_ 0 3 (some (.cellar 128)) none 64 none)) with queues := [(0, { HostQ.fresh with st := .open_ })] }

theorem witness_CellarPorts :
    ((offersOne.tile 0 0).offers.length = 1 ∧ (∀ j, j < 16 → j ≠ 0 → (offersOne.tile 0 j).offers = []) ∧
      offersOne.cellarLost = false ∧ (offersOne.queue 0).rateRd = 0 ∧
      ((after .cellarStepGrant offersOne).cport 2).rdQ.map (fun g => g.addr) = [128]) ∧
    (let s := tagged none none (granule none) 0
     (s.cport 0).down = false ∧ (s.cport 0).freeTag = some 0 ∧ (s.cport 0).rdQ.length = 1 ∧ (s.cport 0).wrQ = [] ∧ (s.cport 0).rmQ = [] ∧
       ((after (.cellarPortArbitrate 0) s).cport 0).cred0 = -40) ∧
    (let s := tagged (some (.cellar 128)) none (granule none) 0
     (s.tile 0 0).accs.map (fun o => o.id) = [0] ∧
       ((after (.cellarReadResponse 0 3 1 7) s).cport 0).corr = 1 ∧
       ((after (.cellarReadResponse 0 3 1 7) s).tile 0 0).accs.map (fun o => (o.have_, o.data.toNat)) = [(1, 7)] ∧
       ((after (.cellarReadResponse 0 3 2 7) s).task? 1).map (fun t => t.cause) = some (some (.fault 8 128 0 31))) ∧
    (let s := tagged none (some (.cellar 128)) (granule (some 9)) 0
     memGet (after (.cellarWriteResponse 0 3 0) s).mem (cellarAt 128) = 9) ∧
    (let s := tagged (some (.cellar 128)) none (granule none) 2000
     0 + s.cellarLimit * 125 ≤ s.now ∧ ((after (.cellarTagTimeout 0 3) s).cport 0).quar = [3]) := by
  decide +kernel

/-- Tile 15 owed two results by its oldest EXT. -/
def owes : Tile :=
  { Tile.fresh with extOwed := [{ owed := 2, tmode := 0, tok := 5, srcTok := 0, first := true, seq := 0 }] }

/-- A die with an extension field, tile 15 of cluster 0 with a tile state. -/
def extDie (x : Tile) : State := { with0 Tile.fresh with tiles := [(15, x)] }

/-- A run that has ended its paragraph and whose end reads go on. -/
def endReads : State :=
  { busy Tile.fresh with clusters := [(0, { work with paraEnded := true, extUsed := true })] }

theorem witness_ExtensionResults :
    ((extDie owes).hasExt = true ∧ Tbl.get false (extDie owes).reload.held 0 = false ∧ 15 < (extDie owes).tpc ∧
      ((extDie owes).tile 0 15).queue 15 = []) ∧
    ((after (.extResult 0 15 0 7) (extDie owes)).tile 0 15).extOwed.map (fun e => e.owed) = [1] ∧
    ((after (.extResult 0 15 1 7) (extDie owes)).cluster 0).extStale = 1 ∧
    ((after (.extResult 0 15 1 7) (extDie { owes with queues := [(15, List.replicate 64 (ent 0 0))] })).cluster 0).extStale = 0 ∧
    ((after (.extResult 0 15 0 7) (extDie Tile.fresh)).cluster 0).extUnowed = 1 ∧
    endReads.scrubs (256 + 127) = true ∧
    frameCrc (Tbl.get 0 endReads.fabric 383) = Tbl.get (frameCrc 0) endReads.attic.shadowCrc 383 ∧
    127 ∈ ((after (.extEndRead 0 127 0) endReads).cluster 0).extRead ∧
    (let s := after (.extEndRead 0 127 0) endReads
     ((after (.extEndRead 0 126 0) s).cluster 0).extRead = [127] ∧
       ((after (.extEndRead 0 126 0) { s with now := s.now + 16 }).cluster 0).extRead = [126, 127]) := by
  decide +kernel

/-- A beat of master 0 with two arguments. -/
def beat (nwd : BitVec 2) (arg0 arg1 : BitVec 64) : CmdBeat := { tag := 9, mid := 0, nwd := nwd, arg0 := arg0, arg1 := arg1 }

/-- A die that serves region 0 to master 0, its context 0 in a state, and the queue 0 of that context. -/
def serves (c : CtxSt) (q : QSt) : State :=
  { waiting 0 0 q .pending with
    ctxs := [(0, { Ctx.fresh with st := c })], objs := [], tasks := [], shape := { Shape.fresh with regionEn := 1, hostQueues := [(0, 8)] },
    queues := [(0, { HostQ.fresh with st := q })] }

theorem witness_ContextCommands :
    (∀ s ∈ [serves .free .idle, serves .live .open_, serves .draining .draining, serves .lost .draining], Taken s 0 (beat 0 0 0) 0) ∧
    ((serves .free .idle).partPresent 0 = true ∧ ((serves .free .idle).ctx 0).st = .free ∧
      (serves .free .idle).partPresent 7 = false ∧ ((after (.ctxCreate 0 (beat 0 0 0)) (serves .free .idle)).ctx 0).st = .live) ∧
    (((serves .lost .draining).ctx 0).poisonDue = false ∧ (serves .lost .draining).tasksOf 0 0 = [] ∧
      ((after (.ctxReset 0 (beat 0 0 0)) (serves .lost .draining)).queue 0).st = .open_ ∧
      ((after (.ctxReset 0 (beat 0 0 0)) (serves .draining .draining)).ctx 0).resetPend = true) ∧
    ((after (.ctxTeardown 0 (beat 0 0 0)) (serves .live .open_)).ctx 0).cause = 5 ∧
    (0 < (serves .live .idle).queueTotal ∧ ((serves .live .idle).queue 0).st = .idle ∧ (serves .live .idle).queuePart 0 = 0 ∧
      ((after (.queueOpen 0 (beat 0 0 0)) (serves .live .idle)).queue 0).st = .open_) ∧
    ((after (.queueClose 0 (beat 0 0 0)) (serves .live .open_)).queue 0).st = .idle := by
  unfold Taken; decide +kernel

/-- A die with one object in slot 3 and a context whose master is 0. -/
def owning (o : Obj) : State := { serves .live .open_ with objs := [(3, o)] }

/-- A beat that names the object in slot 3, with a second argument. -/
def onObj3 (arg1 : BitVec 64) : CmdBeat := beat 0 0x100003 arg1

theorem witness_ObjectCommands :
    (Taken (serves .live .open_) 0 (beat 0 0x1000 64) 0 ∧ Owns (owning (thing 1 64 0 0 false)) (onObj3 0) 3) ∧
    (∀ b ∈ [beat 0 0 1, beat 0 0x1000 64, beat 0 0x2000 64],
      bitsN b.arg0.toNat 22 2 = 0 ∧ bitsN b.arg0.toNat 12 2 < 3 ∧ bitsN b.arg1.toNat 0 32 ≠ 0) ∧
    ((serves .live .open_).active 0 = true ∧ (serves .live .open_).shape.part 0 = 0 ∧ ((serves .live .open_).obj 0).st = .free ∧
      lowestFree ((serves .live .open_).room 0 1) ((serves .live .open_).taken 1 0) 1 = some 512 ∧
      ((after (.objAlloc 0 (beat 0 0x1000 64)) (serves .live .open_)).obj 0).base0 = 512) ∧
    ((owning (thing 1 64 0 0 false)).live (named (onObj3 0)) none = some 3 ∧ (owning (thing 1 64 0 0 false)).known (named (onObj3 0)) = some 3 ∧
      ((after (.objFree 0 (onObj3 0)) (owning (thing 1 64 0 0 false))).obj 3).st = .reclaim ∧
      ((after (.refAdd 0 (onObj3 0)) (owning (thing 1 64 0 0 false))).obj 3).refs = 1 ∧
      ((after (.pin 0 (onObj3 0)) (owning (thing 1 64 0 0 false))).obj 3).pins0 = 1 ∧
      ((after (.share 0 (onObj3 1)) (owning (thing 1 64 0 0 false))).obj 3).shared = true) ∧
    (let s := { owning { thing 1 64 0 0 false with fence := true } with mem := [(2 ^ 40, 7)] }
     memWf s.mem = true ∧ (after (.fenceSignal 0 (onObj3 9)) s).fenceWord 3 = 9 ∧ (after (.fenceSignal 0 (onObj3 5)) s).fenceWord 3 = 7) ∧
    ((after (.refDrop 0 (onObj3 0)) (owning { thing 1 64 0 0 false with refs := 1 })).obj 3).refs = 0 ∧
    ((after (.unpin 0 (onObj3 1)) (owning { thing 1 64 0 0 true with readers1 := 1, pins1 := 1 })).obj 3).pins1 = 0 ∧
    (((after (.descRead 0 (onObj3 0)) (owning (thing 1 64 0 0 false))).port 0).cmds.map (fun c => c.op)) = [0x0F] := by
  unfold Taken Owns; decide +kernel

/-- A task descriptor: queue and context 0, one cluster, budget 1. -/
def plain : BitVec 512 := BitVec.ofNat 512 (1 + 2 ^ 16 + 0x100003 * 2 ^ 32 + 2 ^ 128)

/-- A die whose context 0 owns a live larder object with a paragraph image. -/
def submits : State :=
  { serves .live .open_ with objs := [(3, thing 1 4096 0 0 false)], mem := [(2 ^ 40, 1), (2 ^ 40 + 4, 1), (2 ^ 40 + 16, 64), (2 ^ 40 + 64, 1)] }

/-- One write-data beat of the descriptor. -/
def half (n : Nat) : WdBeat := { tag := 9, data := plain.extractLsb' (256 * n) 256 }

/-- A port whose oldest commands are answered and whose next one awaits two beats since cycle 0. -/
def awaits : State :=
  let c (owed : Nat) : PCmd := { op := 0x10, tag := 9, mid := 0, arg0 := 0, owed := owed, wd := [], at_ := 0, ans := none, task := none }
  { serves .live .open_ with now := 1250, front := [(0, { Front.fresh 0 with cmds := [c 0, c 2] })] }

theorem witness_Submissions :
    (∀ s ∈ [submits, awaits], s.start.st = 7 ∧ s.scrub.running = true ∧ (s.port 0).hung = false) ∧
    (Taken submits 0 (beat 2 0 0) 2 ∧ Taken submits 0 (beat 3 0 0) 3 ∧ Taken submits 0 (beat 0 0 0) 0) ∧
    (let a : Ask := { desc := BitVec.ofNat 512 ((half 0).data.toNat + (half 1).data.toNat * 2 ^ 256), objs := [] }
     0 < submits.queueTotal ∧ a.nobj = 0 ∧ submits.askOk 0 a = true ∧ submits.handlesOk 0 0 a = true ∧ submits.sealsOk 0 a = true ∧
       (submits.unitCheck 0 a).1 = true ∧ (submits.pendingOf 0).length < (submits.queue 0).qdepth) ∧
    ((after (.submit 0 (beat 2 0 0) [half 0, half 1]) submits).queue 0).waiting = [2] ∧
    (((after (.writeDataBeat 0 (half 0)) awaits).port 0).cmds.map (fun c => c.owed)) = [0, 1] ∧
    (((after (.writeDataBeat 0 { half 0 with tag := 8 }) awaits).port 0).cmds.map (fun c => c.owed)) = [0, 0] ∧
    (0 + awaits.wdLimit * 125 ≤ awaits.now ∧ ((after (.wdTimeout 0) awaits).port 0).wdErr = 1) := by
  unfold Taken; decide +kernel

/-- A beat of the response channel. -/
def resp (kind : Nat) : RespBeat := { op := 0x0F, tag := 9, mid := 0, kind := kind, status := 0, result := 0, record := 0 }

/-- A port 0 with an answered command, a completion to post, and beats offered since cycle 0. -/
def answers (ans : Option (BitVec 192)) (cmds : Bool) (offered : List RespBeat) : State :=
  { serves .live .open_ with
    now := 1250000,
    front := [(0, { Front.fresh 0 with
      cmds := if cmds then [{ op := if ans.isSome then 0x0F else 4, tag := 9, mid := 0, arg0 := 0, owed := 0, wd := [], at_ := 0, task := none,
                              ans := some { status := 0, result := 7, cont := ans } }] else [],
      posted := [(1, resp 1)], offered := offered, offeredAt := some 0,
      irq := [(15, { want := true, pulses := 0, lastAt := some 1249998 })] })] }

theorem witness_FrontPorts :
    (∀ s ∈ [answers none true [], answers (some 3) true [], answers none false [], answers none true [resp 0, resp 2]],
      s.start.st = 7 ∧ s.scrub.running = true ∧ (s.port 0).hung = false) ∧
    (((after (.answerOffer 0) (answers none true [resp 0, resp 2])).port 0).offered.map (fun b => b.kind)) = [2] ∧
    (((after (.answerOffer 0) (answers none true [])).port 0).offered.map (fun b => b.kind)) = [0] ∧
    (((after (.answerOffer 0) (answers (some 3) true [])).port 0).offered.map (fun b => b.kind)) = [0, 2] ∧
    (((after (.answerOffer 0) (answers none false [])).port 0).offered.map (fun b => b.kind)) = [1] ∧
    (let held (line : Nat) : State := { answers none false [] with
       front := [(0, { (answers none false []).port 0 with pulseFirst := [(1, 0, line)] })] }
     (((after (.answerOffer 0) (held 14)).port 0).offered.map (fun b => b.kind)) = [1] ∧
       ((after (.answerOffer 0) (held 15)).port 0).offered = [] ∧ ((after (.answerOffer 0) (held 15)).port 0).posted.length = 1) ∧
    (let x : BitVec 256 := 0x10 + 9 * 2 ^ 8 + 2 * 2 ^ 32
     commandOf 0 x [] = .submit 0 (beat 2 0 0) [] ∧ commandOf 0 (0x3F + 9 * 2 ^ 8) [] = .reservedOpCommand 0 (beat 0 0 0) 0x3F) ∧
    (0 + (answers none true []).respLimit * 125000 ≤ (answers none true []).now ∧
      ((after (.respTimeout 0) (answers none true [])).port 0).hung = true ∧
      Tbl.get false (after (.respTimeout 0) (answers none true [])).expired 0 = true) ∧
    ((after (.frontClear 0) (after (.respTimeout 0) (answers none true []))).port 0).hung = false ∧
    ((Tbl.get Irq.fresh ((after (.irqPulse 0 15) (answers none true [])).port 0).irq 15).pulses = 1) ∧
    (Taken (serves .live .open_) 0 (beat 3 0 0) 3 ∧
      ((after (.reservedOpCommand 0 (beat 3 0 0) 0x12) (serves .live .open_)).port 0).badField = 1) := by
  unfold Taken; decide +kernel

/-- A die with a session of all roles in place 0. -/
def session : Session := { roles := 0x1F, at_ := 0, finished := true, probe := false }

/-- A state with that session. -/
def managed (s : State) (x : Session) : State := { s with sec := { s.sec with sessions := [(0, x)] } }

theorem witness_ControlSpace :
    let s := managed (serves .live .open_) session
    (∀ role ∈ [0, 1], Tbl.find 0 s.sec.sessions = some session ∧ session.finished = true ∧ session.roles.getLsbD role = true) ∧
    s.sec.fallback = false ∧ (Tbl.get 0x64 s.hbLimit 0 = 100) ∧
    (s.unusable 0 15 = false ∧ s.unusable 31 16 = true) ∧ ((s.ctx 0).st ≠ .free ∧ (s.ctx 0).master.toNat = 0) ∧
    s.queueState 0 ≠ .absent ∧ (BitVec.ofNat 26 3).toNat % 4 ≠ 0 ∧
    (Taken s 0 (beat 0 0x3000000 0) 0 ∧ Taken s 0 (beat 0 0x3000280 0) 0 ∧ Taken s 0 (beat 0 0x3006004 0) 0) ∧
    ((s.queue 0).st = .open_ ∧ (s.ctx (s.queue 0).ctx.toNat).master = 0) ∧
    ((after (.ctlWr 0 (beat 0 0x3006004 0x3FFF0FFF)) s).queue 0).waitLimit = 60000 ∧
    (after (.mgmtCtlWr 0 0x30001BC 5) s).groups = [(15, 5)] ∧
    (after (.mgmtCtlWr 0 0x30001BC 5) (managed s { session with roles := 0x1D })).sec.lastAns = .spdmError ∧
    (after (.mgmtCtlRd 0 0x3000000) { s with sec := { s.sec with fallback := true } }).sec.lastAns = .spdmError ∧
    (after (.broadcastWrite endpoint (BitVec.ofNat 26 (30 * 2 ^ 14 + 0x24)) 1) s).skipLast = 32 * 17 - 4 * 17 ∧
    (after (.groupWrite endpoint (BitVec.ofNat 26 (15 * 2 ^ 20 + 30 * 2 ^ 14 + 0x24)) 1) { s with groups := [(15, 0x80000001)] }).skipLast = 17 := by
  unfold Taken; decide +kernel

theorem witness_BroadcastAdmits :
    let s := managed (serves .live .open_) session
    ((0 : Fin 4097) ≠ endpoint ∧ bitsN (0x01078024 : BitVec 26).toNat 24 2 = 1 ∧ bitsN (0x02078024 : BitVec 26).toNat 24 2 = 2) ∧
    (Taken s 0 (beat 0 0x01078024 1) 0 ∧ (beat 0 0x01078024 1).mid.toNat = 0 ∧ (beat 0 0x01078024 1).arg0.toNat % 2 ^ 26 = 0x01078024) ∧
    (after (.broadcastWrite 0 0x01078024 1) s).skipLast = 0 := by
  unfold Taken; decide +kernel

/-! ### Management, start-up and reload -/

/-- A die a minute after reset with one anchor, three failures short of a lockout, and a session. -/
def secured (x : Session) (fallback : Bool) (cause : Nat) : State :=
  let s := managed (serves .live .open_) x
  { s with now := 60 * 125000000, hard := { s.hard with fallback := 0x00000A04 },
           sec := { s.sec with anchors := [5], fails := 2, fallback := fallback, cause := cause } }

theorem witness_Sessions :
    (let s := secured session false 0
     s.sec.lockedUntil = none ∧ (5 : BitVec 384) ∈ s.sec.anchors ∧ Tbl.find 1 s.sec.sessions = none ∧ Tbl.find 0 s.sec.sessions ≠ none ∧
       upTo 255 (s.sec.fails + 1) < max 1 (bitsN s.hard.fallback.toNat 0 4) ∧
       (after (.keyExchange true 5 3) s).sec.lastAns = .value 1 ∧ (after (.keyExchange true 6 3) s).sec.fails = 3 ∧
       (after (.keyExchange true 6 3) { s with sec := { s.sec with fails := 3 } }).sec.cause = 3 ∧
       (after .endpointWatchdogMiss s).sec.cause = 2 ∧ session.at_ + 60 * 125000000 ≤ s.now ∧
       (after (.sessionTimeout 0) s).sec.sessions = []) ∧
    (let x := { session with finished := false }
     let s := secured x false 0
     Tbl.find 0 s.sec.sessions = some x ∧ s.sec.fails + 1 < max 1 (bitsN s.hard.fallback.toNat 0 4) ∧
       (after (.finish 0 true) s).sec.fails = 0 ∧ (after (.finish 0 false) s).sec.fails = 3) ∧
    (Tbl.find 0 (secured session true 3).sec.sessions = some session ∧ (after (.resume 0) (secured session true 3)).sec.fallback = false) ∧
    (let s := secured session true 2
     s.start.st = 7 ∧ s.scrub.running = true ∧ s.sec.answerAt + 125000000 ≤ s.now ∧ (after .fallbackEnd s).sec.fallback = false) ∧
    (let s := secured session false 0
     (after .lockoutEnd { s with sec := { s.sec with lockedUntil := some 1 } }).sec.lockedUntil = none) := by
  decide +kernel

/-- A header of a segment of 16 or 32 bytes for this build and position 0, under the fuse key. -/
def segHdr (kind len : Nat) : BitVec 1024 :=
  BitVec.ofNat 1024 (0x5A534731 + 2 ^ 32 + kind * 2 ^ 40 + 0x5A * 2 ^ 48 + 2 ^ 56 + 0xD78 * 2 ^ 64 + 2 ^ 104 + len * 2 ^ 160)

/-- A segment of a plaintext, encrypted under the key 1 with the vector 0, and its tag in place. -/
def sealed (h : BitVec 1024) (plain : List Byte) : Seg :=
  let keys := aesKeys (beNat (leBytes 32 1))
  let text := gcmText keys 0 plain
  { hdr := h ||| BitVec.ofNat 1024 (leNat (blockBytes (gcmTag keys 0 (leBytes 128 h.toNat) text)) * 2 ^ 288), body := text }

/-- The records of a stream: END alone, or with a shape record of one END entry before it. -/
def records (kind : Nat) : List Byte :=
  let endRec : List Byte := [0x1F, 0, 0, 0, 0, 0, 0, 0, 0, 0, 0, 0, 0, 0, 0, 0]
  if kind = 1 then [0x10, 1, 0, 0, 0, 0, 0, 0, 0xFF, 0, 0, 0, 0, 0, 0, 0] ++ endRec else endRec

/-- A segment of that stream. -/
def segment (kind : Nat) : Seg := sealed (segHdr kind (if kind = 1 then 32 else 16)) (records kind)

/-- The same with its first bit of ciphertext flipped. -/
def tampered (kind : Nat) : Seg :=
  let g := segment kind
  { g with body := (g.body.getD 0 0 ^^^ 1) :: g.body.drop 1 }

/-- Whether a check passes. -/
def passes : Checked → Bool
  | .passed _ => true
  | .failed _ => false

/-- The code of a check that fails. -/
def code : Checked → Nat
  | .passed _ => 0
  | .failed n => n

/-- A die that is managed, with a fuse key. -/
def managing : State :=
  let s := managed (serves .live .open_) session
  { s with sec := { s.sec with fuseKey := some 1, anchors := [5] } }

/-- A parcel of one recipient, the die whose identity scalar is 5, byte 0 lowest: its author's point is 7 G, its content key the byte
3 and zeros, its content the bytes 1 to 16 under a policy of one digest and SHARE_OK. Made apart from the model, from R451 to R453
and the standards that they name. -/
def parcelNat : Nat :=
  0xB705A1880599BFD938B81B6E000000000000000000000000090909090909090909090909090909090000000000000210000001015A504331 +
  0xD0B68FB4050F04B2EBB9556F52058B501C7BFA9DCC582DFA5FEAFB97E96FADFEDF4E23BF8E9FF28847CE65731D3C280400000000E1B675FA * 2 ^ 448 +
  0x8CEF12C5DA4C66649E8FA732DE4ED8305622BD1DD02CC9D9299779ED67D8611A4790168CDBEF52BA881BE46190C97594E1 * 2 ^ 896 +
  0x81A946DE223DD22600E51891898AF39906499B7EBCFD4565AC19FB8C851AADB6000000000000000000000000000000000000000000000000 * 2 ^ 1344 +
  0x326370C13C5287CFB24DD5F20F44B5EEF898F6FC1DD062B4ECEB31EB0000000000000000000000001C8C48D9F31351E059911988A8991B0E * 2 ^ 1792 +
  0x7D7585BA13B0D00B24F8FBB8C8519A95742C7466D84E1BE4E2E991C4FCFE01E5000000007CE1B1929E911AA8EF36DB20B8D2D2DF8FD8D27E * 2 ^ 2240 +
  0xD06ABF95BEECB8F20920B99383E2AC38306DC4EB5BFF0367AE1ACB5AB7E3450F20443DD05713CB7723B925206290953316F9B498A5811336 * 2 ^ 2688 +
  0xE929D2ABBC83CD6E5DCF0335113B134E1818449E1CB32BB4A879973842E26938506CB9AA270A85E86376E1CC1B61DA733BFAF6303FE6F66A * 2 ^ 3136 +
  0xE099D507E9733DC32A450FB6A9372F2C0A5109D02E61B1BCAA15785AB6222FCE72D749EBCA5BEFC9D7A7283F52A9DD12755C78E1962CAF60 * 2 ^ 3584 +
  0xF95BA83A83E6C74305F3A4BCA30EA00AA3E76329E0C95FF020A8BFFCE57DF28C1F338EA1FB44E79B8F200D7F25A500D0B7E581B8F37731AD * 2 ^ 4032 +
  0xD02C00206C74FE2509263260E44DA5C069952C6C69EC50C5E61C2160BC2B96CF74BBACD44611BF59B0D75B79D3CB4AB23EA20CE3099BF045 * 2 ^ 4480 +
  0x545696D20BF3E2701938302D982E325F9DA67FAF32CFFA706602549EF971DAA9E27759691B7837A35F0CBA2CB0B162293BDD481AF25925F0 * 2 ^ 4928 +
  0x36E6117D1B1B415093717490DFDD791E569E94DC5F421F39CA162848F5C2BFFC131038A98F38170EDE3DE6370A8387216DD265CAB6016DBF * 2 ^ 5376 +
  0xDF1BC9A980E33D16C8E7A06B950C7B85D5964738556A89C6D6D6A5CA11A61CB53D3567A4B943EC93EE3E28969A4FB3A3D3D0F838CCE43848 * 2 ^ 5824 +
  0xFC30A96D44C6424858BB1ED4FD5F65557F9D33CB6C1CCAE0CCFE7E3E602C7C4759AAFBA46DDEF8692A009C223966D5B5 * 2 ^ 6272

/-- Bytes listed one by one from an address, zeros left out. -/
def listed : Nat → List Byte → Memory
  | _, [] => []
  | a, b :: r => if b = 0 then listed (a + 1) r else (a, b) :: listed (a + 1) r

/-- The die with that parcel in slot 3, at the start of its larder. -/
def parcels : State :=
  { managing with
    mem := listed (2 ^ 40) (leBytes 832 parcelNat)
    sec := { managing.sec with identity := 5 }
    objs := [(0, thing 1 64 9 0 false), (3, thing 1 4096 0 0 false)] }

/-- A slice of 16 bytes at home in cluster 0. -/
def slice0 (tier : Nat) : Slice := { off := 0, len := 16, tier := tier, home := 0 }

/-- The opening of that parcel once its content key is known. -/
def opening0 : Opening :=
  { owner := 0, src := 3, slots := [4], slices := [slice0 1], hdr := BitVec.ofNat 1536 parcelNat, key := 3 }

/-- The die while it decrypts that parcel's payload into hidden slot 4. -/
def decrypting : State :=
  { parcels with
    mem := listed (2 ^ 40 + 304) (leBytes 528 (parcelNat / 256 ^ 304))
    sec := { parcels.sec with opening := some opening0 }
    objs := [(3, { thing 1 4096 0 0 false with refs := 1 }), (4, { thing 1 16 1 0 false with hidden := true })] }

/-- Known answers of FIPS 180-4 ("abc") and of P-384 and HKDF, computed apart from the model. -/
theorem test_crypto :
    shaNat [0x61, 0x62, 0x63] =
      0xcb00753f45a35e8bb5a03d699ac65007272c32ab0eded1631a8b605a43ff5bed8086072ba1e7cc2358baeca134c825a7 ∧
    (curveMul 5 curveG).1 =
      0x11de24a2c251c777573cac5ea025e467f208e51dbff98fc54f6661cbe56583b037882f4a1ca297e60abcdbc3836d84bc ∧
    wrapKey 5 (sec1 (curveMul 7 curveG)) (List.replicate 16 0) =
      0xf3100bf8384e69cc42bfaa5957efac3aa2b6f48d38b9e26babad86456517868f := by decide +kernel

theorem witness_DiscardedShape :
    (Tbl.find 0 managing.sec.sessions = some session ∧ session.finished = true ∧ session.roles.getLsbD 1 = true ∧
      managing.sec.fallback = false) ∧
    passes (managing.checkSegment (segment 1) true true) = true ∧ segLen (segment 1) ≤ (segment 1).body.length ∧
    (after (.shapeLoad 0 (segment 1).hdr (segment 1).body) managing).pendShape.isSome = true := by decide +kernel

theorem witness_ManagementCommands :
    (∀ role ∈ [1, 2, 3, 4], session.roles.getLsbD role = true ∧ session.finished = true) ∧
    (Tbl.find 0 managing.sec.sessions = some session ∧ managing.sec.opening = none ∧ managing.sec.openWaits = none ∧
      managing.reload.st = 0 ∧ managing.sec.fallback = false ∧ managing.sec.anchors = [5] ∧ managing.sec.fuseKey = some 1 ∧
      (imageBytes 0 [segment 0]).length ≤ 11 * 2 ^ 20) ∧
    (passes (managing.checkSegment (segment 1) true true) = true ∧ code (managing.checkSegment (segment 0) true true) = 2 ∧
      (after (.shapeLoad 0 (segment 1).hdr (segment 1).body) managing).report.state = 2 ∧ (after (.shapeLoad 0 (segment 0).hdr (segment 0).body) managing).cfg.first = 2 ∧
      (after (.shapeLoad 0 (tampered 1).hdr (tampered 1).body) managing).cfg.first = 0x0A) ∧
    (let s := { managing with reload := { managing.reload with st := 2 } }
     (after (.imageWrite 0 0 []) s).attic.waiting.length = 1 ∧ (after (.imageWrite 0 0 []) managing).attic.len ≤ 11 * 2 ^ 20) ∧
    (let s := { managing with start := { managing.start with st := 8, head := true } }
     (after (.restart 0) s).start.st = 0) ∧
    Tbl.find 7 (after (.keySet 0 7 9) managing).sec.slots = some 9 ∧
    (after (.keySet 0 15 9) managing).sec.lastAns = .spdmError ∧
    (after (.keySet 0 15 9) { managing with sec := { managing.sec with fuseKey := none } }).sec.fuseKey = some 9 ∧
    (after (.anchorSet (some 0) 6) managing).sec.anchors = [5, 6] ∧
    (after (.anchorSet none 6) State.reset).sec.anchors = [6] := by
  decide +kernel

theorem witness_ParcelOpen :
    (parcels.live 0x100003 none = some 3 ∧ (parcels.obj 3).owner = 0 ∧ (parcels.obj 3).ownerDie = parcels.die ∧
      parcels.parcelOk 3 = true ∧ parcels.sliceOk (parcels.srcNat 3 8 4 - 512) 0 (slice0 1) = true ∧ (parcels.obj 1).st = .free ∧
      (parcels.obj 0).st ≠ .free ∧
      lowestFree (parcels.room 0 1) (parcels.taken 1 0) (parcels.granules 1 16) = some 512) ∧
    parcels.recipient 3 = some 0 ∧ parcels.unwrap 3 0 = { ok := true, plain := leBytes 32 3 } := by
  decide +kernel

theorem witness_ParcelOpenDone :
    (decrypting.ctx 0).st = .live ∧ (decrypting.obj 4).hidden = true ∧ memWf decrypting.mem = true ∧ opening0.len = 528 ∧
      (let g := decrypting.payloadOf opening0
       g.ok = true ∧ policyOk (g.plain.take 512) 528 = true ∧ (g.plain.drop 512) = (List.range 16).map (fun i => BitVec.ofNat 8 (i + 1))) ∧
      (after (.parcelOpenDone false) decrypting).sec.parcelCode = 5 := by
  decide +kernel

/-- An attic with an image of one segment for this build. -/
def imageHdr : BitVec 2048 := BitVec.ofNat 2048 (0x5A434831 + 2 ^ 32 + 2 ^ 40 + 256 * 2 ^ 128 + 144 * 2 ^ 160)

/-- The attic that holds it. -/
def attic1 : Attic := { State.reset.attic.rewrite imageHdr [segment 0] with waiting := [] }

/-- A die that starts, in a state of Table 14-2, with a fuse key. -/
def starts (st : Nat) (head : Bool) (rx : Option Seg) (f : Startup → Startup) : State :=
  { State.reset with start := f { State.reset.start with st := st, head := head, rx := rx },
                     sec := { State.reset.sec with fuseKey := some 1 }, attic := attic1 }

theorem witness_StartUp :
    (∀ head ∈ [true, false], (starts 0 head none id).start.st = 0 ∧ (starts 0 head none id).start.head = head) ∧
    (starts 0 true none id).attic.fault = 0 ∧ State.reset.attic.fault = 1 ∧
    (after (.powerStateEnd true) (starts 0 true none id)).start.st = 1 ∧ (after (.powerStateEnd true) State.reset).start.st = 8 ∧
    (after .chainRestart (starts 6 true none id)).start.st = 0 ∧
    ((starts 2 false none id).start.rx = none ∧ (starts 2 false none id).start.rxBroken = false ∧
      (after (.chainStream 15 [segment 0]) (starts 2 false none id)).start.pos = 15 ∧
      (after (.chainStream 15 [segment 0]) (starts 2 false none id)).start.st = 3 ∧
      (after (.chainStream 0 []) (starts 2 false none id)).start.chainOut.length = 1 ∧
      (after (.chainStream 16 [segment 0]) (starts 2 false none id)).start.rxBroken = true ∧
      (after .gapLimitExpire { starts 2 false none id with now := 1136364 }).cfg.early = true ∧
      (after .gapLimitExpire { starts 2 false none id with now := 1136363 }).cfg.early = false) ∧
    (let s := starts 3 true (some (segment 0)) id
     segLen (segment 0) ≤ (segment 0).body.length ∧ s.attic.inside 0 = true ∧ passes (s.checkSegment (segment 0) false true) = true ∧
       (after (.segmentReceived []) s).start.st = 4 ∧ (after (.segmentReceived []) (starts 3 false (some (tampered 0)) id)).cfg.first = 0x0A) ∧
    (let g : Seg := { segment 0 with body := (segment 0).body.take 9 }
     let s := starts 2 false (some g) id
     g.body.length < segLen g ∧ (after (.segmentReceived ((segment 0).body.drop 9)) s).start.st = 4 ∧
       (after (.segmentReceived [0]) s).start.st = 2) ∧
    (let s := starts 5 true none id
     (after .doneHigh s).start.stage = 1 ∧ (after .doneLate { s with now := 125000000 }).start.doneLate = true) ∧
    (∀ n ∈ [1, 2, 3], (starts 6 true none (fun u => { u with stage := n })).start.stageAt + 64 ≤ 64 ∧
      (after .releaseStage { starts 6 true none (fun u => { u with stage := n }) with now := 64 }).start.stage = n + 1) ∧
    (let s := { serves .live .open_ with pendShape := some Shape.fresh, tasks := [], queues := [] }
     s.mayApply Shape.fresh = true ∧ s.objs = [] ∧ (after .shapeApply s).pendShape = none ∧
       (waiting 0 0 .open_ .pending).mayApply Shape.fresh = false) := by
  decide +kernel

theorem witness_FramesWritten :
    let s := starts 4 true (some (segment 0)) (fun u => { u with skipped := 3 })
    let locked := { s with power := { State.reset.power with rootLock := true } }
    (s.start.st = 4 ∧ s.power.rootLock = false ∧ (after (.frameWrite false) s).cfg.first = 0x0F ∧
      (after (.frameWrite true) s).start.noLock = true ∧ (after (.frameWrite true) s).cfg.skipped = 3) ∧
    locked.power.rootLock = true ∧ (after (.frameWrite true) locked).start.done = true := by
  decide +kernel

/-- A die that serves, its region 1 about to be reloaded, in a state of Table 14-10. -/
def reloads (st : Nat) : State :=
  { starts 7 true none id with reload := { State.reset.reload with st := st, target := 1, region := 1, held := if st = 2 then [(1, true)] else [] },
                               scrub := { State.reset.scrub with running := true } }

/-- A die whose scrubbers are due at frame `d`, which differs from its zero shadow in bit 5. -/
def scrubbed (d : Nat) : State :=
  { busy Tile.fresh with now := 0x10000,
                         scrub := { State.reset.scrub with running := true, mapPos := d, privPos := d } }

theorem witness_PartialReload :
    ((reloads 0).present 7 = true ∧ (after (.reloadRequest endpoint 7) (reloads 0)).reload.st = 1 ∧
      (after (.reloadRequest endpoint 7) (reloads 3)).reload.reject = true) ∧
    ((∀ i, i < 4 → ((reloads 1).cluster (4 + i)).task = none ∧ ((reloads 1).cluster (4 + i)).phase = .idle ∧
        ((reloads 1).cluster (4 + i)).resv = none) ∧ (reloads 1).sec.opening = none ∧
      (after .reloadDrainEnd { reloads 1 with objs := [(0, { thing 1 64 0 0 false with home := 4 })] }).reload.st = 2 ∧
      ((after .reloadDrainEnd { reloads 1 with objs := [(0, { thing 1 64 0 0 false with home := 4 })] }).obj 0).st = .reclaim ∧
      (after .reloadDrainEnd { reloads 1 with clusters := [(4, work)] }).reload.st = 1) ∧
    ((reloads 2).attic.fault = 0 ∧ (reloads 2).ownSegment = some 0 ∧
      passes ((reloads 2).checkSegment ((reloads 2).attic.seg 0) false ((reloads 2).attic.inside 0)) = true ∧
      (after (.reloadLoadDone true true) (reloads 2)).reload.st = 3 ∧ (after (.reloadLoadDone true false) (reloads 2)).cfg.first = 0x0F) ∧
    ({ reloads 2 with attic := State.reset.attic }.attic.fault = 1 ∧
      (after (.reloadLoadDone true true) { reloads 2 with attic := State.reset.attic }).cfg.partial_ = true) ∧
    ({ reloads 2 with start := { (reloads 2).start with pos := 5 } }.ownSegment = none ∧
      (after (.reloadLoadDone true true) { reloads 2 with start := { (reloads 2).start with pos := 5 } }).cfg.first = 7) ∧
    (code ({ reloads 2 with sec := State.reset.sec }.checkSegment ((reloads 2).attic.seg 0) false ((reloads 2).attic.inside 0)) = 9 ∧
      (after (.reloadLoadDone true true) { reloads 2 with sec := State.reset.sec }).cfg.first = 9) ∧
    (reloads 3).pending = [] ∧ (reloads 3).reload.releaseAt + 128 ≤ { reloads 3 with now := 127 }.now + 1 := by
  decide +kernel

/-- A die whose shadow and shells agree and whose scrubbers run, with the clock at 1,250,000. -/
def scrubsOn (f : Scrub → Scrub) : State :=
  { scrubbed 0 with now := 1250000, scrub := f { State.reset.scrub with running := true, copy0 := 0, copy1 := 0, copy2 := 0 } }

theorem witness_Scrubbing :
    (after (.scrubVote 2 7) (scrubbed 0)).scrub.outvoted = [2] ∧ State.reset.scrub.outvoted = [] ∧
    (after (.scrubVote 0 7) { scrubbed 0 with scrub := { (scrubbed 0).scrub with copy1 := 8 } }).scrub.lost = true ∧
    (after .scrubRefresh (scrubsOn id)).scrub.refreshAt = 1250000 ∧
    (after .scrubRefresh (scrubsOn (fun x => { x with copy0 := 1, copy1 := 1, copy2 := 1 }))).scrub.lost = true ∧
    (let s := starts 7 true none id
     let t := { s with attic := { State.reset.attic with shadowCrc := [(768, 1)] } }
     s.scrub.running = false ∧ t.shadowOk 768 = false ∧ (after (.shellReloadDone false) t).start.st = 8) := by
  decide +kernel

/-- Every frame of a shadow that nothing has written agrees with its CRC. -/
theorem witness_Scrubbing_shadow : ∀ d, (starts 7 true none id).shadowOk d = true := by
  intro d
  have e : (starts 7 true none id).attic.shadow = [] ∧ (starts 7 true none id).attic.shadowCrc = [] := ⟨rfl, rfl⟩
  simp [State.shadowOk, State.shadowOf, e, Tbl.get, Tbl.find]

/-- The frame at a scrubber's place is the one it takes next. -/
theorem next_at (p : Nat → Bool) (n d : Nat) (h : d < n) (hd : p d = true) :
    (nextFrame ((List.range n).filter p) d).map Prod.fst = some d := by
  have : ((List.range n).filter p).find? (fun e => decide (d ≤ e)) = some d := by
    rw [List.find?_filter, List.find?_range_eq_some]
    refine ⟨by simp [hd], by simpa using h, fun j hj => ?_⟩
    have : ¬ d ≤ j := by omega
    simp [this]
  simp [nextFrame, this]

theorem witness_Scrubbers :
    TakesNext (scrubbed 6911) ((List.range 7168).filter (scrubbed 6911).mapReads) 6911 0
      ((scrubbed 6911).scrubInterval 0) 6911 ∧
    TakesNext (scrubbed 7423) ((List.range 7424).filter (fun d => !mapped d && (scrubbed 7423).scrubs d)) 7423 0
      ((scrubbed 7423).scrubInterval 8) 7423 ∧
    frameCluster 6911 = some 30 ∧ (frameCrc (0 ^^^ 32) ≠ frameCrc 0 ∧ wordsDiff (0 ^^^ 32) 0 &&& (scrubbed 6911).mapOf 6911 ≠ 0) ∧
    (scrubbed 6911).shadowOk 6911 = true ∧ bitsDiff (0 ^^^ 32) 0 = 1 := by
  refine ⟨⟨by decide +kernel, by decide +kernel, next_at _ _ _ (by decide) (by decide +kernel)⟩,
    ⟨by decide +kernel, by decide +kernel, next_at _ _ _ (by decide) (by decide +kernel)⟩, by decide +kernel, by decide +kernel,
    by decide +kernel, by decide +kernel⟩

/-- What the readers do with a frame that has changed: an extension-field frame of cluster 0, and one of its sequencer shell; the bit
map of the first is empty in the second state, and its DEFER bit is set in the third. -/
theorem witness_Scrubbers_outcomes :
    let s := scrubbed 256
    let t := { s with attic := { s.attic with emap := [(256, 0)] } }
    let u := { t with scrub := { t.scrub with copy0 := 0x01010208 ^^^ 2 ^ 24, copy1 := 0x01010208 ^^^ 2 ^ 24,
                                              copy2 := 0x01010208 ^^^ 2 ^ 24 } }
    let v := scrubbed 768
    (frameCluster 256 = some 0 ∧ frameCluster 0 = none ∧ frameCluster 768 = some 0 ∧ frameCluster 7168 = none) ∧
    (wordsDiff 32 0 ≠ 0 ∧ wordsDiff 32 0 &&& s.mapOf 256 ≠ 0 ∧ wordsDiff 32 0 &&& t.mapOf 256 = 0 ∧
      t.scrubCfg.getLsbD 24 = true ∧ u.scrubCfg.getLsbD 24 = false ∧ bitsDiff 33 0 = 2) ∧
    ((after (.mapScrubFrame 32) s).task? 1).map (fun k => k.cause) = some (some (.fault 7 (frameAddr 256) 0 31)) ∧
    (after (.mapScrubFrame 0) s).scrub.ess = 0 ∧
    (after (.mapScrubFrame 32) t).scrub.noness = 1 ∧ Tbl.get 0 (after (.mapScrubFrame 32) t).fabric 256 = 32 ∧
    Tbl.get 0 (after (.mapScrubFrame 32) u).fabric 256 = 0 ∧
    (after (.privScrubFrame 32) v).scrub.privCorr = 1 ∧
    ((after (.privScrubFrame 33) v).task? 1).map (fun k => k.cause) = some (some (.fault 5 (frameAddr 768) 0 31)) := by
  decide +kernel

/-! ### Power, coolant and links -/

/-- A die that serves, with the clock at 2,000,000 and the supply of region 0 up. -/
def later : State := { busy Tile.fresh with now := 2000000 }

/-- It, with something changed in its power. -/
def powered (f : Power → Power) : State := { later with power := f later.power }

theorem witness_PowerAndCoolant :
    (later.faults.stopped = false ∧ later.reload.st = 0 ∧ later.task? 1 = some job ∧ job.clusters ≠ [] ∧ job.after = none ∧
      ((after .coolantLoss later).task? 1).map (fun t => t.cause) = some (some .coolant)) ∧
    ((after .coolantLoss later).faults.stopped = true ∧ (after .coolantLoss later).faults.thermal = false ∧
      (after .coolantReturn (after .coolantLoss later)).power.aclkStop = false) ∧
    (let s := later.onMonitor 7 (fun m => { m with temp := 111 })
     s.present 7 = true ∧ (after (.thermalTrip 7) s).faults.thermal = true ∧ (after (.thermalTrip 7) later).faults.thermal = false) ∧
    (State.reset.now < State.reset.power.evalAt + 125 ∧ later.power.evalAt + 125 ≤ later.now) ∧
    (let s := powered (fun p => { p with pairs := [(1, (1, 0))] })
     neighbours 0 1 = true ∧ s.present 0 = true ∧ s.present 1 = true ∧ (Tbl.get (0, 0) s.power.pairs 1).1 = 1 ∧
       20 < (90 : BitVec 8).toNat - (60 : BitVec 8).toNat ∧
       ((after (.neighbourEval [90, 60] []) s).monitor 0).thrPair = 1 ∧ ((after (.neighbourEval [60, 90] []) s).monitor 1).thrPair = 1) ∧
    ((BitVec.toNat (700 : BitVec 10)) + 30 + 2 * later.lowMargin 0 < 750 ∧ (later.monitor 0).droop = false ∧
      (let s := { later with shape := { later.shape with aclkDiv := [(0, 5), (1, 3), (4, 4)] } }
       (s.divider 1 < (s.divider 0 + 3) / 2) ∧ ((after (.droopTrip 0 700) s).monitor 1).nbr = true ∧
         ((after (.droopTrip 0 700) s).monitor 4).nbr = false ∧
         ((after (.droopEnd 0) (after (.droopTrip 0 700) s)).monitor 1).nbr = false)) ∧
    (later.power.govAt + 125000 ≤ later.now ∧ (after (.governorWindow 120001) later).power.capStep = 1 ∧
      (after (.governorWindow 120000) later).power.capStep = 0 ∧
      (after (.governorWindow 107999) (powered (fun p => { p with capStep := 2, calm := 9 }))).power.capStep = 1 ∧
      (after (.governorWindow 107999) (powered (fun p => { p with capStep := 2, calm := 8 }))).power.calm = 9 ∧
      (after (.governorWindow 108000) (powered (fun p => { p with capStep := 2, calm := 8 }))).power.calm = 0) ∧
    (later.power.windowAt + 1250000 ≤ later.now ∧ (after (.powerWindow 1250) later).power.power = 3) := by
  decide +kernel

theorem witness_DomainsAndCapacity :
    (let s := powered (fun p => { p with domains := [(192, { Domain.fresh with st := 2 })] })
     (s.present 0 = true ∧ (s.power.domains.all (fun d => d.2.want = none)) = true ∧ (s.domain 160).st = 0 ∧ (s.domain 128).st = 0 ∧
       (s.domain 192).st = 2 ∧ s.ramping < 4) ∧ ((after (.domainOn endpoint 160) s).domain 160).st = 1) ∧
    (let s := powered (fun p => { p with domains := [(160, { Domain.fresh with st := 2 })] })
     let t := { s with shape := { s.shape with regionEn := 0 } }
     let s := { s with shape := { s.shape with regionEn := 1 } }
     (s.active 0 = true ∧ t.active 0 = false ∧ (t.domain 160).st = 2) ∧ ((after (.domainOff endpoint 160) t).domain 160).st = 3 ∧
       (after (.domainOff endpoint 160) s).power.ctlResult = 3) ∧
    (let s := powered (fun p => { p with domains := [(127, { Domain.fresh with st := 1 }), (191, { Domain.fresh with st := 3 })] })
     let t := { s with mem := [(shelfAt (31 * 17 + 12) 5, 7), (larderAt 31 9, 8)] }
     ((t.domain 127).want = none ∧ (t.domain 127).at_ + 192 ≤ t.now ∧ (t.domain 191).at_ + 64 ≤ t.now) ∧
       ((after (.domainSeqDone 127) t).domain 127).st = 2 ∧ (after (.domainSeqDone 127) t).mem.length = 1 ∧
       ((after (.domainSeqDone 191) t).domain 191).st = 0 ∧ (after (.domainSeqDone 191) t).mem.length = 1) ∧
    (let s := { later with objs := [(3, thing 1 64 0 0 false)] }
     (after (.capacityWithdraw endpoint false 0) s).faults.capSt = 4 ∧ (after (.capacityWithdraw endpoint false 1) s).faults.capSt = 1 ∧
       (after (.capacityRestore endpoint true 7) s).faults.capSt = 2) ∧
    (let s := { later with faults := { later.faults with capSt := 1, capRegion := 1 } }
     let t := { s with faults := { s.faults with capSt := 2, capRestore := true, out := 2 } }
     ([4, 5, 6, 7].all (fun c => (s.cluster c).task = none && (s.cluster c).phase = .idle && (s.cluster c).resv = none)) = true ∧
       s.needsMore = false ∧ (after .capacityTakeEffect s).faults.out = 2 ∧ (after .capacityTakeEffect t).faults.out = 0) := by
  decide +kernel

/-- An access of tile 0 that waits for die 2. -/
def waitsFor : Access :=
  { id := 3, slot := 3, seq := 0, xfer := 0, rd := some (.remote 2 0 false 0 true), wr := none, width := 64, data := 0, granted := true,
    have_ := 0, dests := [], ctr := none }

/-- A die of two packages with both span ports active, whose tile 0 waits for die 2. -/
def linked (f : Span → Span) : State :=
  let up : Span := f { Span.fresh with st := 5, expSeq := 7, replays := [4, 5, 6], sendSeq := 7 }
  { busy { Tile.fresh with accs := [waitsFor] } with
    now := 200000000, cfg := { State.reset.cfg with npkg := 2 }, span := [(0, up), (1, up)],
    linkReqs := [{ die := 2, tag := 9, tile := 0, acc := 3 }] }

/-- A live object in the larder of cluster 0, with a granule of data, and a fence there. -/
def shared : State :=
  { linked id with objs := [(0, thing 1 64 0 0 false), (1, { thing 1 64 2 0 false with fence := true })], mem := [(2 ^ 40, 5)] }

theorem witness_LinkMessages :
    (shared.cellarLost = false ∧ shared.inWindow (0x11 * 64) = true ∧ shared.inWindow (2 ^ 20) = false ∧ shared.served = [] ∧
      (after (.cread 2 9 (2 ^ 14) false) shared).linkOut = [(2, .rdata 9 3 0)] ∧
      (after (.cwrite 2 9 (2 ^ 14) false 5) shared).linkOut = [(2, .wack 9 3)] ∧
      ((after (.cread 2 9 0x11 false) shared).cport 0).rmQ.length = 1 ∧
      (after (.cwrite 2 9 0x10 false 0) shared).served.length = 1) ∧
    ((shared.obj 0).st = .live ∧ (shared.obj 0).tier = 1 ∧ memWf shared.mem = true ∧
      (after (.oread 2 9 false 0 0 false) shared).linkOut = [(2, .rdata 9 0 5)] ∧
      memGet (after (.owrite 2 9 false 0 0 false 0x0600) shared).mem (2 ^ 40 + 1) = 6 ∧
      (shared.obj 2).st = .free ∧ (after (.oread 2 9 false 2 0 false) shared).linkOut = [(2, .rdata 9 3 0)]) ∧
    (shared.linkReqs.find? (fun q => q.die = 2 && q.tag = 9) = some { die := 2, tag := 9, tile := 0, acc := 3 } ∧
      (shared.cluster 0).phase ≠ .stopped ∧ (shared.cluster 0).task = some 1 ∧ shared.task? 1 = some job ∧ job.life = .running ∧
      ((after (.rdata 2 9 1 77) shared).tile 0 0).accs.map (fun a => (a.have_, a.data.toNat)) = [(1, 77)] ∧
      ((after (.wack 2 9 2) shared).task? 1).map (fun t => t.life) = some .aborting) := by
  decide +kernel

/-- The same with cluster 0 changed. -/
def sharedWith (x : Cluster) : State := { shared with clusters := [(0, x)] }

theorem witness_LinkMessages_mail :
    (let full := sharedWith { work with mbox := List.replicate 16 (msg 0 true) }
     let sends := sharedWith { work with posted := 1 }
     shared.clusterOf 1 0 = some 0 ∧ shared.clusterOf 1 5 = none ∧ full.clusterOf 1 0 = some 0 ∧ (full.cluster 0).mbox.length = 16 ∧
       ((after (.mail 2 1 0 ⟨(2 ^ 32 * 11), false⟩) shared).cluster 0).mbox.map (fun m => m.w1.toNat) = [11] ∧
       (after (.mail 2 1 0 ⟨(2 ^ 32 * 11), false⟩) shared).linkOut.map Prod.fst = [2] ∧
       (after (.mail 2 1 5 ⟨0, false⟩) shared).mails.length = 1 ∧ (after (.mail 2 1 0 ⟨0, false⟩) full).mails.length = 1 ∧
       shared.task? 77 = none ∧ (after (.mail 2 77 0 ⟨0, false⟩) shared).mails.length = 1 ∧
       ((after (.mail 2 1 0 ⟨0, true⟩) sends).cluster 0).posted = 2) := by
  decide +kernel

theorem witness_LinkMessages_runs :
    (let b : Bound := { idx := 3, die := 2, slot := 9, ver := true, size := 64, tier := 1 }
     (shared.tasks.all (fun p => p.2.after = none)) = true ∧
       ((after (.arrive 2 1 4 ⟨true, [b]⟩) shared).task? 1).map (fun t => (t.reported 2, t.named.map (fun n => n.idx))) =
         some ((4, true), [3]) ∧
       (let s := sharedWith { work with step := .arrived, punct := 3 }
        (s.cluster 0).stopEpoch = job.stops ∧
          ((after (.release 2 1 ⟨1, [b]⟩) s).task? 1).map (fun t => (t.stops, t.named.map (fun n => n.bound))) =
            some (1, [some (List.range 32)]) ∧
          ((after (.release 2 1 ⟨1, []⟩) s).cluster 0).step ≠ .arrived)) ∧
    (((after (.abort 2 ⟨1, false⟩) shared).task? 1).map (fun t => t.life) = some .aborting ∧
      ((after (.abort 2 ⟨1, true⟩) shared).task? 1).map (fun t => t.drains) = some [2] ∧
      (after (.abort 2 ⟨(2 ^ 33 + 7), false⟩) shared).linkOut = [(2, .abort (2 ^ 33 + 7) true)]) := by
  decide +kernel

/-- The handle of the fence. -/
def fenced : Word := shared.handle 1

/-- Task 1 at the head of queue 0, which has asked the listed dies for the clusters that region 0 lacks; die 2 has clusters of
the partition. -/
def gathers (asked : List Nat) (n : Nat) : State :=
  { waiting 0 0 .blocked .pending with
    peers := [(16, 1)],
    tasks := [(1, { job with life := .pending, clusters := [], started := [], resolved := false, desc := BitVec.ofNat 512 (n * 2 ^ 16) })],
    queues := [(0, { HostQ.fresh with st := .blocked, block := 3, waiting := [1], asked := asked })] }

/-- A start message of die 2. -/
def starting : StartMsg :=
  { seq := 4, context := 7, part := 0, desc := 0, objs := [], vers := [], layout := [(2, 1), (0, 1)], outst := 1 }

/-- The reservation of cluster 3 for a die. -/
def reservedFor (r : Nat) (s : State) : State := { s with clusters := [(3, { Cluster.fresh with resv := some r })] }

theorem witness_LinkMessages_dispatch :
    (shared.live fenced none = some 1 ∧ (shared.obj 1).fence = true ∧
      (after (.fence 2 fenced (2 ^ 63)) shared).fenceWord 1 = 2 ^ 63) ∧
    (let s := waiting 0 0 .open_ .pending
     (s.urgentFor = [] ∧ (s.queues.all (fun y => y.2.urgent = false)) = true ∧ s.start.st = 7 ∧ s.scrub.running = true ∧
       s.faults.stopped = false ∧ s.faults.thermal = false) ∧
       (after (.dispatchReserve 2 0 3 false) s).linkOut = [(2, .answer 3)] ∧
       ((after (.dispatchReserve 2 0 3 false) s).cluster 2).resv = some 2048) ∧
    (let s := reservedFor 2048 shared
     (s.task? (taskKey 2 4) = none ∧ ((List.range 32).filter (fun c => (s.cluster c).resv = some 2048)) = [3]) ∧
       starting.after = none ∧ s.mayDispatch = true ∧ starting.objs = [] ∧
       ((after (.dispatchStart 2 starting) s).cluster 3).task = some (taskKey 2 4) ∧
       ((after (.dispatchCancel ⟨2, none⟩) s).cluster 3).resv = none ∧
       (let w := { s with faults := { s.faults with stopped := true } }
        w.mayDispatch = false ∧ (after (.dispatchStart 2 starting) w).starts.length = 1) ∧
       (let u := { shared with urgentFor := [(2, 0)] }
        (List.range 32).all (fun c => (u.cluster c).resv ≠ some 2048) = true ∧ (after (.dispatchCancel ⟨2, none⟩) u).urgentFor = [])) ∧
    (let s := { shared with tasks := [(taskKey 2 4, { job with die := 2, seq := 4, life := .held })] }
     (s.task? (taskKey 2 4)).map (fun t => t.life) = some .held ∧
       ((after (.dispatchStart 2 starting) s).task? (taskKey 2 4)).map (fun t => t.rerun) = some true ∧
       (after (.dispatchCancel ⟨2, (some (taskKey 2 4))⟩) s).task? (taskKey 2 4) = none ∧
       (let d := { s with tasks := [(taskKey 2 4, { job with die := 2, seq := 4, life := .aborting })] }
        (after (.dispatchStart 2 starting) d).starts.length = 1)) ∧
    (reservedFor 0 (gathers [2] 2)).stillReady 1 (((gathers [2] 2).task? 1).getD job) = true ∧
    (let s := gathers [] 5
     (s.head 0 = .short 1 ∧ s.mayDispatch = true ∧ 2 ≠ s.die ∧ 2 ∉ s.lostDies ∧ (s.queue 0).got = [] ∧ (s.queue 0).part = 0 ∧
       (s.task? 1).map (fun t => t.part) = some 0 ∧
       ((List.range 32).all (fun c => (s.cluster c).resv ≠ some (s.die * 1024))) = true) ∧
       (after (.dispatchIdle 2 0) s).linkOut = [(2, .reserve 0 1 false)]) ∧
    (let s := reservedFor 0 (gathers [2] 2)
     ((s.queues.find? (fun o => o.2.asked.getLast? = some 2 && o.2.got.length < o.2.asked.length)).map Prod.fst = some 0 ∧
       (s.queue 0).waiting = [1] ∧ (s.task? 1).map (fun t => t.ncluster) = some 2) ∧
       ((after (.dispatchAnswer 2 1) s).cluster 3).task = some 1 ∧ (after (.dispatchAnswer 2 1) s).linkOut.map Prod.fst = [2]) := by
  decide +kernel

theorem witness_LinkPorts :
    ((linked id).hasSpan 0 = true ∧ ((linked id).spanOf 0).st = 5 ∧ 7 ∉ ((linked id).spanOf 0).replays ∧
      ((linked id).spanOf 0).replays = [4] ++ 5 :: [6] ∧ ((linked id).spanOf 0).auth < 3 ∧
      ((after (.spanFrameReceive 0 .good [] 7 5) (linked id)).spanOf 0).replays = [6] ∧
      ((after (.spanFrameReceive 0 .good [] 8 5) (linked id)).spanOf 0).nacked = true ∧
      ((after (.spanFrameReceive 0 .good [0x81, 0x80, 0x681] 7 5) (linked id)).spanOf 0).format = 2 ∧
      ((after (.spanFrameReceive 0 .badTag [] 7 5) (linked id)).spanOf 0).st = 6 ∧
      ((after (.spanFrameReceive 0 .badTag [] 7 5) (linked (fun x => { x with auth := 3 }))).spanOf 0).st = 7 ∧
      (4 + 4095) % 4096 ∉ ((linked id).spanOf 0).replays ∧ ((after (.spanNack 0 4) (linked id)).spanOf 0).replay = 1 ∧
      ((after (.spanReplayTimeout 0) (linked (fun x => { x with tries := 7 }))).spanOf 0).st = 6) ∧
    (let go (st : Nat) (peer : Fin 16) (keys : Bool) : Span :=
       (after (.spanTrainStep 0 peer 2 0x5A 0xD78 keys 6) (linked (fun x => { x with st := st }))).spanOf 0
     (go 1 2 true).st = 2 ∧ (go 2 2 true).st = 3 ∧ (go 3 2 true).st = 4 ∧ (go 3 3 true).cause = 3 ∧ (go 4 2 false).cause = 5 ∧
       (go 4 2 true).st = 5 ∧ (go 6 2 true).st = 1) ∧
    ((after (.spanStateTimeout 0) (linked (fun x => { x with st := 2, stateAt := 200000000 - 6251 }))).spanOf 0).cause = 1 ∧
    ((after (.spanStateTimeout 0) (linked (fun x => { x with st := 2, stateAt := 200000000 - 6250 }))).spanOf 0).cause = 0 ∧
    ((after (.spanStateTimeout 0) (linked (fun x => { x with st := 3, stateAt := 200000000 - 1251 }))).spanOf 0).cause = 6 ∧
    (let s := linked (fun x => { x with st := 6, retrain := 1 })
     (s.start.st = 7 ∧ (s.spanOf 1).rerouted = false ∧ (s.spanOf 1).enterAt + 125000 * max 1 (bitsN s.hard.link.toNat 8 8) ≤ s.now ∧
       (s.linkReqs.all (fun r => s.goesBy 1 r.die)) = true) ∧
       ((after (.retrainLimitExpire 1) s).task? 1).map (fun t => t.life) = some .aborting ∧
       ((after (.linkLost 1) s).spanOf 1).st = 7) ∧
    (let s := with0 Tile.fresh
     s.hasSeam = true ∧ s.seam.st = 0 ∧ s.start.st = 7 ∧ (after .seamActive s).seam.st = 1 ∧
       (after .seamActive State.reset).seam.st = 0 ∧ (after .seamRetrain (after .seamActive s)).seam.st = 2) := by
  decide +kernel

theorem witness_TagFails :
    (∀ port : Fin 2, (linked id).hasSpan port.val = true ∧ ((linked id).spanOf port.val).st = 5 ∧ ((linked id).spanOf port.val).auth < 15) ∧
    ((after (.spanFrameReceive 1 .badTag [] 0 0) (linked (fun x => { x with auth := 2 }))).spanOf 1).st = 6 ∧
    ((after (.spanFrameReceive 1 .badTag [] 0 0) (linked (fun x => { x with auth := 3 }))).spanOf 1).st = 7 := by decide +kernel

theorem witness_GroupOrder :
    let ps : List NumVal := [.fin 1 2, .fin 3 4, .fin (-5) 8]
    List.Perm ps ps.reverse ∧ (ps.all (fun x => match x with | .fin _ d => decide (0 < d) | _ => true)) = true ∧
      NumVal.same (groupValue true ps) (.fin 5 8) = true ∧ NumVal.same (groupValue false ps) (.fin 5 8) = true ∧
      groupValue false [.inf true, .fin 1 1, .inf false] = .nan := by
  refine ⟨(List.reverse_perm _).symm, ?_⟩; decide +kernel

/-! ### The machine as a whole -/

/-- The state after a step, where there is one. -/
def stepped (s : State) : Option State :=
  match step s with
  | .next t => some t
  | _ => none

theorem witness_StepRunsFront : State.reset.pending = [] ∧
    (stepped { State.reset with pending := [.coolantLoss, .rootLock] }).map (fun t => t.pending) = some [.rootLock] := by decide +kernel

theorem witness_MemoryCanonicalKept :
    memWf loads.mem = true ∧ (stepped { loads with pending := [.paragraphLoad 0] }).isSome = true := by decide +kernel

theorem witness_QueueKept : exec .rootLock State.reset = .next (after .rootLock State.reset) := rfl

/-! ### What cannot be sent (WellFormed) -/

theorem test_unsendable : (Instr.imageWrite 0 0 (List.replicate 17 (segment 0))).wf = false ∧
    (Instr.chainStream 0 (List.replicate 256 (segment 0))).wf = false ∧ (Instr.parcelOpen 0 0 0 0 []).wf = false ∧
    (Instr.parcelOpen 0 0 0 65 (List.replicate 65 (slice0 0))).wf = false ∧
    (Instr.parcelOpen 0 0 0 64 (List.replicate 64 (slice0 0))).wf = true := by decide +kernel


/-! ### AES-256 and GCM -/

/-- Known answers: FIPS 197, C.3; test cases 13 and 14 of the GCM specification, an empty message and one block under the zero key. -/
theorem test_aes_gcm_known_answers :
    aesBlock (aesKeys 0x000102030405060708090a0b0c0d0e0f101112131415161718191a1b1c1d1e1f) 0x00112233445566778899aabbccddeeff =
      0x8ea2b7ca516745bfeafc49904b496089 ∧
    gcmTag (aesKeys 0) 0 [] [] = 0x530f8afbc74536b9a963b4f1c4cb738b ∧
    gcmTag (aesKeys 0) 0 [] (blockBytes 0xcea7403d4d606b6e074ec5d3baf39d18) = 0xd0d1c8a799996bf0265b98b5d48ab919 ∧
    beNat (gcmText (aesKeys 0) 0 (blockBytes 0xcea7403d4d606b6e074ec5d3baf39d18)) = 0 := by decide +kernel

/-! ### Worked examples of the manual -/

/-- A code rounded to another format. -/
def rounded (src code dst : Nat) (mode : Rnd) : Nat := (convert dst mode (decode src code)).1

/-- Table 02-8, to H16 and F8, the cases that overflow, underflow, tie or draw. -/
theorem test_convert_table_02_8 :
    rounded 5 0x3F808000 0 .rne = 0x3F80 ∧ rounded 5 0x3F818000 0 .rne = 0x3F82 ∧ rounded 5 0x3F804000 0 (.sr 8 0xC5) = 0x3F81 ∧
    rounded 5 0x3F804000 0 (.sr 8 0x3A) = 0x3F80 ∧ rounded 5 0x3C23D70A 1 .rne = 0x00 ∧ rounded 5 0x3C7C0000 1 .rne = 0x08 ∧
    rounded 5 0x43FA0000 1 .rne = 0x7F ∧ rounded 6 303 0 .rne = 0x4398 ∧ rounded 0 0xC060 2 .rne = 0xFC ∧ rounded 6 200 2 .rne = 0x7F ∧
    rounded 5 0x00400000 0 .rne = 0 ∧ rounded 5 0x7F7F0000 0 .rne = 0x7F7F ∧ rounded 5 0x7F7FFFFF 0 .rne = 0x7F80 ∧
    rounded 5 0x7F800000 1 .rne = 0x80 := by decide +kernel

/-- Table 03-7: eight steps of one generator draw 219. -/
theorem test_draw_table_03_7 : draw 1 8 = (0xDB36C002, 219) := by decide +kernel

/-- Tables 03-5 and 03-6: an exact F8 group, its rounding into the running sum, and an H16 group at its window. -/
theorem test_groups_tables_03_5_and_03_6 :
    let f8 (a b : Nat) : NumVal := NumVal.mul (decode 1 a) (decode 1 b)
    let h16 (a b : Nat) : NumVal := NumVal.mul (decode 0 a) (decode 0 b)
    let v := groupValue true [f8 0x56 0x3C, f8 0xB8 0x4A, f8 0x08 0x7F]
    let w := groupValue false [h16 0x4980 0x3F80, h16 0x3FC0 0x3500, h16 0x3FA0 0x3480, h16 0x3F80 0x3500, h16 0xBFC0 0x3580]
    f32Code v = 0x41BC0000 ∧ addGroup false 0x4B800000 (NumVal.mul v (.fin 1 2)) = 0x4B800006 ∧
      NumVal.same w (.fin (2 ^ 40 - 1) (2 ^ 20)) = true ∧ f32Code w = 0x49800000 := by decide +kernel

/-- Table 04-4: the scale of the group, and the codes of the elements that do not escape; element 1 with the draw of Table 03-7. -/
theorem test_quantise_table_04_4 :
    let code (x : Nat) : Nat := toB4 .rne (NumVal.mul (decode 0 x) (.fin 4 1))
    scalePair 0x3F400000 1 true 4 = (0x3E800000, 0x40800000) ∧
      [0xBDC0, 0x3E4D, 0x3EF0, 0x3D80, 0xBC00, 0x3EA4].map code = [5, 0xB, 0xE, 8, 7, 0xD] ∧
      toB4 (.sr 8 219) (NumVal.mul (decode 0 0xBDC0) (.fin 4 1)) = 5 ∧ toB4 (.sr 8 49) (NumVal.mul (decode 0 0xBDC0) (.fin 4 1)) = 4 := by
  decide +kernel

/-- Bucket levels of a queue that offers steps of two granules, so many wanted in each cycle. -/
def levels : Nat → HostQ → List (Nat × Nat × Nat)
  | 0, _ => []
  | n + 1, q =>
    let q := q.refill
    let steps := min 8 (q.bucketRd / 128)
    let p := q.pay false (2 * steps)
    (q.bucketRd, steps, p.bucketRd) :: levels n p

/-- Table 10-6: a bucket meets a burst. -/
theorem test_bucket_table_10_6 :
    levels 11 { HostQ.fresh with rateRd := 40, depthRd := 4, bucketRd := 4096 } =
      [(4096, 8, 3072), (3112, 8, 2088), (2128, 8, 1104), (1144, 8, 120), (160, 1, 32), (72, 0, 72), (112, 0, 112), (152, 1, 24),
       (64, 0, 64), (104, 0, 104), (144, 1, 16)] ∧
    HostQ.affords { HostQ.fresh with rateRd := 40, bucketRd := 160 } false 2 = 2 ∧
    HostQ.affords { HostQ.fresh with rateRd := 40, bucketRd := 72 } false 2 = 1 := by decide +kernel

/-- A shape record. -/
def rec_ (field index value : Nat) : BitVec 64 := BitVec.ofNat 64 (field + index * 2 ^ 8 + value * 2 ^ 32)

/-- The records of Table 01-6. -/
def shape6L : List (BitVec 64) :=
  [rec_ 1 0 0xFF] ++ (List.range 6).map (fun i => rec_ 2 i 15) ++ (List.range 5).map (fun i => rec_ 3 i 2) ++ [rec_ 3 5 5, rec_ 4 0 2] ++
    (List.range 24).map (fun i => rec_ 5 i (if i < 16 then 0 else 1)) ++
    [rec_ 6 0 1, rec_ 7 0 800, rec_ 7 1 400, rec_ 8 0 0, rec_ 9 0 65536, rec_ 10 0 14, rec_ 10 1 20, rec_ 11 0 12, rec_ 11 1 12,
     rec_ 12 0 0, rec_ 12 1 32768, rec_ 13 0 40960, rec_ 13 1 32768, rec_ 14 0 70, rec_ 15 0 40]

/-- A ZX-512 die of grade 6L. -/
def die6L : State := { State.reset with grade := 0x0078C000 }

/-- Table 01-7: the report of an 8L shape on a 6L die, and SHAPE_STATUS. -/
theorem test_shape_table_01_7 :
    let r := (die6L.checkShape shape6L).2
    r.map (fun e => (e.field, e.index, e.action, e.cause, e.value)) =
      [(1, 0, 1, 3, 0x3F), (3, 5, 1, 1, 4), (6, 1, 2, 0, 0), (7, 1, 3, 5, 224), (10, 1, 1, 1, 14), (12, 1, 3, 6, 40960),
       (13, 1, 3, 6, 24576), (15, 0, 1, 2, 25)] ∧
    ({ die6L with report := reportOf r 1 }.dieWord .shapeStatus 0 0) = 0x13140008 := by decide +kernel

/-- Table 17-12: a quad asked OFF at cycle 0 and ON at cycle 20 is OFF at cycle 64, RISING from there, and ON at cycle 256. -/
theorem test_domain_table_17_12 :
    let s0 := { busy Tile.fresh with
      power := { State.reset.power with domains := [(88, { Domain.fresh with st := 2 }), (182, { Domain.fresh with st := 2 })] } }
    let s1 := after (.domainOff endpoint 88) s0
    let s2 := after (.domainOn endpoint 88) { s1 with now := 20 }
    let early := after (.domainSeqDone 88) { s2 with now := 63 }
    let s3 := after (.domainSeqDone 88) { s2 with now := 64 }
    let s4 := after (.domainSeqDone 88) { s3 with now := 255 }
    let s5 := after (.domainSeqDone 88) { s3 with now := 256 }
    [(s1.domain 88).st, (s2.domain 88).st, (early.domain 88).st, (s3.domain 88).st, (s4.domain 88).st, (s5.domain 88).st] =
      [3, 3, 3, 1, 1, 2] ∧ s4.power.ctlResult = 1 ∧ s5.power.ctlResult = 2 := by decide +kernel

/-- Table 19-12: on a 6L die whose region 3 is reloaded and whose cluster 5.2 is OFF, one broadcast write skips 221 tiles; reading
the same address sets CTL_ERR. -/
theorem test_broadcast_table_19_12 :
    let up (d : Nat) : Nat × Domain := (d, { Domain.fresh with st := 2 })
    let on := ((List.range 24).filter (fun c => c ≠ 22)).flatMap (fun c => [4 * c, 4 * c + 1, 4 * c + 2, 4 * c + 3])
    let cs := (List.range 24).filter (fun c => c ≠ 22)
    let s := { busy Tile.fresh with
      grade := 0x0078C000, reload := { State.reset.reload with st := 2, target := 3, held := [(3, true)] },
      power := { State.reset.power with domains := (on ++ cs.map (fun c => 128 + c) ++ cs.map (fun c => 160 + c)).map up } }
    (after (.broadcastWrite endpoint 0x01078024 1) s).skipLast = 221 ∧
    ((s.ctlRead mgmt 0x01078024).2.dieWord .ctlErr 4 0) = 0x8141E009 := by decide +kernel

end Sys2Proof.Tests
end

section
/-! PROOFS. A shape segment that passes its checks: what the checks read, what SHAPE_LOAD leaves, and that the shape it replaces
leaves no trace (R41, R384, R463, R464). -/
namespace Sys2Proof.Machine

/-! ### What the checks of a segment and of a shape read -/

/-- Two states that the checks of a segment and of a shape cannot tell apart: they agree on the build, the grade, the chain position
and the keys, and on nothing else (R29 to R36, R372, R380). -/
structure State.SameChecks (s t : State) : Prop where
  build : t.build = s.build
  grade : t.grade = s.grade
  pos : t.start.pos = s.start.pos
  fuseKey : t.sec.fuseKey = s.sec.fuseKey
  slots : t.sec.slots = s.sec.slots

namespace State.SameChecks
variable {s t : State}

theorem regions (h : s.SameChecks t) : t.regions = s.regions := by
  unfold State.regions
  rw [h.build]

theorem extFrames (h : s.SameChecks t) : t.extFrames = s.extFrames := by
  unfold State.extFrames
  rw [h.build]

theorem shelfSize (h : s.SameChecks t) : t.shelfSize = s.shelfSize := by
  unfold State.shelfSize
  rw [h.build]

theorem larderSize (h : s.SameChecks t) : t.larderSize = s.larderSize := by
  unfold State.larderSize
  rw [h.build]

theorem present (h : s.SameChecks t) : t.present = s.present := by
  funext r
  unfold State.present State.fusedOff
  rw [h.regions, h.grade]

theorem keyOf (h : s.SameChecks t) : t.keyOf = s.keyOf := by
  funext hdr
  unfold State.keyOf
  rw [h.fuseKey, h.slots]

theorem headerFault (h : s.SameChecks t) : t.headerFault = s.headerFault := by
  funext seg runtime inside
  unfold State.headerFault
  rw [h.build, h.grade, h.pos]

/-! The record stream: a state enters through the frames of its build. -/

theorem dense (h : s.SameChecks t) : t.dense = s.dense := by
  funext a
  unfold State.dense
  rw [h.regions, h.extFrames]

theorem addFrame (h : s.SameChecks t) : t.addFrame = s.addFrame := by
  funext x a d crc
  unfold State.addFrame
  rw [h.dense]

theorem addMap (h : s.SameChecks t) : t.addMap = s.addMap := by
  funext x a m
  unfold State.addMap
  rw [h.dense]

theorem addRecord (h : s.SameChecks t) : t.addRecord = s.addRecord := by
  funext x typ count addr body
  unfold State.addRecord
  rw [h.addFrame, h.addMap]

theorem readRecords (h : s.SameChecks t) (fuel : Nat) : t.readRecords fuel = s.readRecords fuel := by
  induction fuel with
  | zero => rfl
  | succ fuel ih =>
    funext x b
    unfold State.readRecords
    rw [h.addRecord, ih]

theorem checkPlain (h : s.SameChecks t) : t.checkPlain = s.checkPlain := by
  funext hdr plain runtime
  unfold State.checkPlain
  rw [h.readRecords]

theorem checkStream (h : s.SameChecks t) : t.checkStream = s.checkStream := by
  funext seg runtime
  unfold State.checkStream
  rw [h.keyOf, h.checkPlain]

/-- A segment passes in both states or fails in both with the same code (R380, R384). -/
theorem checkSegment (h : s.SameChecks t) : t.checkSegment = s.checkSegment := by
  funext seg runtime inside
  unfold State.checkSegment
  rw [h.headerFault, h.checkStream]

/-! The fields of a shape: a state enters through its regions and the sizes of its stores. -/

theorem gone (h : s.SameChecks t) : t.gone = s.gone := by
  funext r
  unfold State.gone
  rw [h.regions]

theorem partIn (h : s.SameChecks t) : t.partIn = s.partIn := by
  funext sh p
  unfold State.partIn State.activeIn
  rw [h.present]

theorem checkRegions (h : s.SameChecks t) : t.checkRegions = s.checkRegions := by
  funext k
  unfold State.checkRegions State.presentMask
  rw [h.present, h.regions]

theorem checkFields (h : s.SameChecks t) : t.checkFields = s.checkFields := by
  funext k
  unfold State.checkFields
  rw [h.checkRegions, h.present, h.gone, h.partIn, h.shelfSize, h.larderSize]

/-- The shape to be used and its report entries are the same in both states (R29 to R36). -/
theorem checkShape (h : s.SameChecks t) : t.checkShape = s.checkShape := by
  funext recs
  unfold State.checkShape
  rw [h.checkFields]

end State.SameChecks

/-! ### A command of a session that holds its role (R463, R464) -/

/-- A message of an open session restarts its idle timer. -/
theorem State.message_of_session {s : State} {i : Nat} {x : Session} (h : Tbl.find i s.sec.sessions = some x) :
    s.message i = { s with sec := { s.sec with sessions := Tbl.set i { x with at_ := s.now } s.sec.sessions } } := by
  unfold State.message State.session
  rw [h]

/-- A message of a session changes nothing that the checks read. -/
theorem State.message_sameChecks (s : State) (i : Nat) : s.SameChecks (s.message i) := by
  unfold State.message
  split <;> exact ⟨rfl, rfl, rfl, rfl, rfl⟩

/-- A set of roles meets another where both have a role. -/
theorem roles_meet {a b : BitVec 5} {role : Nat} (ha : a.getLsbD role = true) (hb : b.getLsbD role = true) :
    (a &&& b != 0) = true := by
  rw [bne_iff_ne]
  intro h0
  have hand : (a &&& b).getLsbD role = true := by rw [BitVec.getLsbD_and, ha, hb]; rfl
  exact absurd hand (by simp [h0])

/-- A command whose role the session holds is carried out, in fallback only where it is served there. -/
theorem State.managed_of_holds {s : State} {sess : Fin 2} {x : Session} {role : Nat} (h : Holds s sess x role) {roles : BitVec 5}
    (hr : roles.getLsbD role = true) {inFallback : Bool} (hf : (inFallback || !s.sec.fallback) = true) (run : State → State) :
    s.managed sess.val roles inFallback run = run (s.message sess.val) := by
  obtain ⟨hfind, hfin, hrole⟩ := h
  unfold State.managed
  rw [State.message_of_session hfind]
  refine if_pos ?_
  unfold State.allowed State.session
  rw [Tbl.find_set_same]
  simp only [hfin, roles_meet hrole hr, hf, Bool.and_self]

/-! ### SHAPE_LOAD (R38, R384) -/

/-- A shape segment that passes is checked as a shape and held pending with its report; beside that SHAPE_LOAD changes the session's
timer, the answer and the kind of load in CFG_ERR. -/
theorem exec_shapeLoad_of_passed {s : State} {sess : Fin 2} {x : Session} {seg : Seg} {st : Stream} (h : Holds s sess x 1)
    (hf : s.sec.fallback = false) (hc : s.checkSegment seg true (decide (segLen seg ≤ seg.body.length)) = .passed st) :
    exec (.shapeLoad sess seg.hdr seg.body) s = .next { s with
      sec := replied s sess x .ok, cfg := { s.cfg with kind := true },
      pendShape := some (s.checkShape st.recs).1, report := reportOf (s.checkShape st.recs).2 2 } := by
  have same := s.message_sameChecks sess.val
  have sameKind : s.SameChecks { s.message sess.val with cfg := { (s.message sess.val).cfg with kind := true } } := { same with }
  change execShapeLoad sess seg.hdr seg.body s = _
  unfold execShapeLoad
  dsimp only
  rw [State.managed_of_holds h (roles := roleAdmin) rfl (by rw [hf]; rfl), same.checkSegment, hc]
  dsimp only
  unfold State.holdShape
  rw [sameKind.checkShape, State.message_of_session h.1]
  rfl

/-- Settles O46: SHAPE_LOAD writes the pending shape and the report whole, and none of its checks reads either. -/
theorem discardedShape : Obligations.DiscardedShape := by
  unfold Obligations.DiscardedShape
  intro s sess x seg st old r h hf hc
  refine ⟨_, exec_shapeLoad_of_passed h hf hc, ?_, rfl, rfl⟩
  have same : s.SameChecks { s with pendShape := old, report := r } := ⟨rfl, rfl, rfl, rfl, rfl⟩
  have loaded := exec_shapeLoad_of_passed (s := { s with pendShape := old, report := r }) h hf
    (by rw [same.checkSegment, hc])
  rw [same.checkShape] at loaded
  exact loaded

end Sys2Proof.Machine
end

section
/-! PROOFS. The group value of a cell and the draws of a generator: V(g) depends on the multiset of the products alone (R70, R73,
R75, R78), and a draw reads off the bits that the shift register shifts out (R87). -/
namespace Sys2Proof.Machine

/-! ### Exact sums (R70) -/

/-- The number a finite value stands for; the NaN and the infinities are given 0. -/
def NumVal.toRat : NumVal → Rat
  | .fin m d => mkRat m d
  | _ => 0

/-- A value is finite, has a denominator, and stands for q. -/
def NumVal.Denotes (x : NumVal) (q : Rat) : Prop := ∃ m d, x = .fin m d ∧ 0 < d ∧ mkRat m d = q

/-- A fraction stands for the sum of two fractions where it does so across their denominators. -/
theorem NumVal.denotes_sum {a b m : Int} {d e k : Nat} (hd : 0 < d) (he : 0 < e) (hk : 0 < k)
    (h : m * (d * e) = (a * e + b * d) * k) : (NumVal.fin m k).Denotes (mkRat a d + mkRat b e) := by
  refine ⟨m, k, rfl, hk, ?_⟩
  rw [Rat.mkRat_add_mkRat a b (Nat.ne_of_gt hd) (Nat.ne_of_gt he),
    Rat.mkRat_eq_iff (Nat.ne_of_gt hk) (Nat.ne_of_gt (Nat.mul_pos hd he)), Int.natCast_mul]
  exact h

/-- The exact sum of two fractions stands for the sum of their numbers, whichever denominator it is put over. -/
theorem NumVal.denotes_add_fin {a b : Int} {d e : Nat} (hd : 0 < d) (he : 0 < e) :
    (NumVal.add (.fin a d) (.fin b e)).Denotes (mkRat a d + mkRat b e) := by
  simp only [NumVal.add]
  by_cases hsame : d = e
  · subst hsame
    rw [if_pos rfl]
    exact NumVal.denotes_sum hd hd hd (by grind)
  rw [if_neg hsame]
  by_cases hde : e % d = 0
  · obtain ⟨k, rfl⟩ := Nat.dvd_of_mod_eq_zero hde
    rw [if_pos hde, Nat.mul_div_cancel_left k hd]
    exact NumVal.denotes_sum hd he he (by grind)
  rw [if_neg hde]
  by_cases hed : d % e = 0
  · obtain ⟨k, rfl⟩ := Nat.dvd_of_mod_eq_zero hed
    rw [if_pos hed, Nat.mul_div_cancel_left k he]
    exact NumVal.denotes_sum hd he hd (by grind)
  rw [if_neg hed]
  exact NumVal.denotes_sum hd he (Nat.mul_pos hd he) (by grind)

/-- The exact sum of two finite values stands for the sum of their numbers. -/
theorem NumVal.Denotes.add {x y : NumVal} {p q : Rat} (hx : x.Denotes p) (hy : y.Denotes q) : (NumVal.add x y).Denotes (p + q) := by
  obtain ⟨a, d, rfl, hd, rfl⟩ := hx
  obtain ⟨b, e, rfl, he, rfl⟩ := hy
  exact NumVal.denotes_add_fin hd he

/-- Two values that stand for one number are the same by value. -/
theorem NumVal.Denotes.same {x y : NumVal} {q : Rat} (hx : x.Denotes q) (hy : y.Denotes q) : NumVal.same x y = true := by
  obtain ⟨a, d, rfl, hd, hq⟩ := hx
  obtain ⟨b, e, rfl, he, rfl⟩ := hy
  exact decide_eq_true ((Rat.mkRat_eq_iff (Nat.ne_of_gt hd) (Nat.ne_of_gt he)).mp hq)

/-- The sum of the numbers that values stand for, from a number on. -/
def ratSum (q : Rat) (ps : List NumVal) : Rat := ps.foldl (fun r x => r + x.toRat) q

/-- The sum of numbers does not depend on their order. -/
theorem ratSum_eq_of_perm {ps qs : List NumVal} (h : List.Perm ps qs) (q : Rat) : ratSum q ps = ratSum q qs :=
  h.foldl_eq' (fun x _ y _ r => by rw [Rat.add_assoc, Rat.add_comm x.toRat, ← Rat.add_assoc]) q

/-- A chain of exact additions stands for the sum of the numbers added. -/
theorem NumVal.denotes_foldl_add {ps : List NumVal} (h : ∀ x ∈ ps, x.Denotes x.toRat) {acc : NumVal} {q : Rat}
    (hacc : acc.Denotes q) : (ps.foldl NumVal.add acc).Denotes (ratSum q ps) := by
  induction ps generalizing acc q with
  | nil => exact hacc
  | cons p ps ih => exact ih (fun x hx => h x (List.mem_cons_of_mem p hx)) (hacc.add (h p List.mem_cons_self))

/-- A product that is no NaN and no infinity stands for its own number. -/
theorem NumVal.denotes_toRat {x : NumVal} (hx : IsValue x) (hs : x.special = false) : x.Denotes x.toRat := by
  cases x with
  | fin m d => exact ⟨m, d, rfl, hx m d rfl, rfl⟩
  | nan => cases hs
  | inf neg => cases hs

/-- The exact sum of a group does not depend on the order of its products (R70, R75). -/
theorem exactSum_same_of_perm {ps qs : List NumVal} (h : List.Perm ps qs) (hv : ∀ x ∈ ps, IsValue x)
    (hs : ps.any NumVal.special = false) :
    NumVal.same (ps.foldl NumVal.add (.fin 0 1)) (qs.foldl NumVal.add (.fin 0 1)) = true := by
  have hps : ∀ x ∈ ps, x.Denotes x.toRat := fun x hx =>
    NumVal.denotes_toRat (hv x hx) (Bool.eq_false_iff.mpr (List.any_eq_false.mp hs x hx))
  have hqs : ∀ x ∈ qs, x.Denotes x.toRat := fun x hx => hps x (h.mem_iff.mpr hx)
  have hzero : (NumVal.fin 0 1).Denotes (mkRat 0 1) := ⟨0, 1, rfl, Nat.one_pos, rfl⟩
  have hsum := NumVal.denotes_foldl_add hqs hzero
  rw [← ratSum_eq_of_perm h] at hsum
  exact (NumVal.denotes_foldl_add hps hzero).same hsum

/-! ### Sums with an infinity (R78) -/

@[simp] theorem NumVal.nan_add (x : NumVal) : NumVal.add .nan x = .nan := rfl

@[simp] theorem NumVal.add_nan (x : NumVal) : NumVal.add x .nan = .nan := by cases x <;> rfl

/-- Two values that are NaN or infinite are added to a sum in either order. -/
theorem NumVal.add_right_comm_of_special {x y : NumVal} (hx : x.special = true) (hy : y.special = true) (z : NumVal) :
    NumVal.add (NumVal.add z x) y = NumVal.add (NumVal.add z y) x := by
  cases x with
  | fin m d => cases hx
  | nan => simp only [NumVal.add_nan, NumVal.nan_add]
  | inf a =>
    cases y with
    | fin m d => cases hy
    | nan => simp only [NumVal.add_nan, NumVal.nan_add]
    | inf b =>
      cases z with
      | nan => rfl
      | fin m d => cases a <;> cases b <;> rfl
      | inf c => revert a b c; decide

/-- The sum of a group's infinities does not depend on their order (R75, R78). -/
theorem specialSum_eq_of_perm {ps qs : List NumVal} (h : List.Perm ps qs) :
    (ps.filter NumVal.special).foldl NumVal.add (.fin 0 1) = (qs.filter NumVal.special).foldl NumVal.add (.fin 0 1) :=
  (h.filter NumVal.special).foldl_eq' (fun _ hx _ hy =>
    NumVal.add_right_comm_of_special (List.mem_filter.mp hx).2 (List.mem_filter.mp hy).2) _

/-! ### The window sum (R73) -/

/-- The largest exponent of a list does not depend on its order. -/
theorem maxExp_eq_of_perm {es fs : List Int} (h : List.Perm es fs) : maxExp es = maxExp fs := by
  induction h with
  | nil => rfl
  | cons e _ ih => simp only [maxExp, ih]
  | swap e f l =>
    simp only [maxExp]
    cases maxExp l with
    | none => exact congrArg some (by omega)
    | some g => exact congrArg some (by omega)
  | trans _ _ ih₁ ih₂ => exact ih₁.trans ih₂

/-- The window sum of a group does not depend on the order of its products: neither the window unit nor the sum of the rounded
products does (R73, R75). -/
theorem windowSum_eq_of_perm {ps qs : List NumVal} (h : List.Perm ps qs) : windowSum ps = windowSum qs := by
  unfold windowSum
  rw [maxExp_eq_of_perm (h.filterMap prodExp)]
  cases maxExp (qs.filterMap prodExp) with
  | none => rfl
  | some e =>
    have hsum := (h.map (unitsOf (e - 40))).foldl_eq' (f := (· + ·)) (fun x _ y _ z => Int.add_right_comm z x y) 0
    exact congrArg (dyadic · (e - 40)) hsum

/-! ### The group value (R75) -/

/-- Values that are equal are both NaN, or the same by value. -/
theorem NumVal.nan_or_same_of_eq {x y : NumVal} (h : x = y) : (x = .nan ∧ y = .nan) ∨ NumVal.same x y = true := by
  subst h
  cases x with
  | nan => exact .inl ⟨rfl, rfl⟩
  | inf neg => exact .inr (decide_eq_true rfl)
  | fin m d => exact .inr (decide_eq_true rfl)

/-- Settles O55, along the branches of the group value: a NaN among the products, an infinity, the exact path, the window path. -/
theorem groupOrder : Obligations.GroupOrder := by
  unfold Obligations.GroupOrder
  intro onExact ps qs h hv
  unfold groupValue
  rw [← h.any_eq (f := NumVal.isNan), ← h.any_eq (f := NumVal.special)]
  by_cases hnan : ps.any NumVal.isNan = true
  · simp only [hnan, if_true, and_self, true_or]
  simp only [hnan]
  by_cases hinf : ps.any NumVal.special = true
  · simp only [hinf, if_true]
    exact NumVal.nan_or_same_of_eq (specialSum_eq_of_perm h)
  simp only [hinf]
  cases onExact with
  | true => exact .inr (exactSum_same_of_perm h hv (Bool.eq_false_iff.mpr hinf))
  | false => exact NumVal.nan_or_same_of_eq (windowSum_eq_of_perm h)

/-! ### Draws (R87) -/

/-- One step of a generator, on the register as 32 bits: the register after it, and the bit shifted out (R87). -/
theorem genStep_shifted (s : BitVec 32) (m : Nat) :
    genStep (shifted s m).toNat = ((shifted s (m + 1)).toNat, ((shifted s m).getLsbD 0).toNat) := by
  have hbit : (shifted s m).toNat % 2 = ((shifted s m).getLsbD 0).toNat := by
    rw [BitVec.getLsbD, Nat.toNat_testBit, Nat.pow_zero, Nat.div_one]
  unfold genStep
  rw [hbit, shifted]
  cases (shifted s m).getLsbD 0 with
  | false =>
    rw [if_neg Bool.false_ne_true, BitVec.toNat_ushiftRight, Nat.shiftRight_eq_div_pow]
    rfl
  | true =>
    rw [if_pos rfl, BitVec.toNat_xor, BitVec.toNat_ushiftRight, Nat.shiftRight_eq_div_pow]
    rfl

/-- A value holds the bits that the first m steps shift out, bit j from step j, and nothing above them. -/
def HoldsBits (s : BitVec 32) (m r : Nat) : Prop := r < 2 ^ m ∧ ∀ j, j < m → r.testBit j = (shifted s j).getLsbD 0

/-- The bit that the next step shifts out goes above the bits held. -/
theorem HoldsBits.succ {s : BitVec 32} {m r : Nat} (h : HoldsBits s m r) :
    HoldsBits s (m + 1) (r + ((shifted s m).getLsbD 0).toNat * 2 ^ m) := by
  obtain ⟨hlt, hbits⟩ := h
  have hb := Nat.mul_le_mul_left (2 ^ m) (Bool.toNat_le ((shifted s m).getLsbD 0))
  rw [Nat.add_comm r, Nat.mul_comm]
  refine ⟨by rw [Nat.pow_succ]; omega, fun j hj => ?_⟩
  rw [Nat.testBit_two_pow_mul_add _ hlt]
  by_cases hjm : j < m
  · rw [if_pos hjm, hbits j hjm]
  · obtain rfl : j = m := by omega
    rw [if_neg hjm, Nat.sub_self, Nat.testBit_bool_toNat]
    rfl

/-- A draw that continues after m steps leaves the register of m + n steps and holds the bits of them all. -/
theorem drawGo_shifted (s : BitVec 32) (n : Nat) {m r : Nat} (h : HoldsBits s m r) :
    (drawGo n m (shifted s m).toNat r).1 = (shifted s (m + n)).toNat ∧ HoldsBits s (m + n) (drawGo n m (shifted s m).toNat r).2 := by
  induction n generalizing m r with
  | zero => exact ⟨rfl, h⟩
  | succ n ih =>
    rw [drawGo, genStep_shifted, Nat.add_left_comm m n 1, Nat.add_comm n (m + 1)]
    exact ih h.succ

/-- Settles O54: a draw starts after no step, with no bit held. -/
theorem draws : Obligations.Draws := by
  unfold Obligations.Draws
  refine ⟨fun s n => ?_, rfl, rfl, rfl⟩
  have hstart : HoldsBits s 0 0 := ⟨Nat.one_pos, fun j hj => absurd hj (Nat.not_lt_zero j)⟩
  have hdraw := drawGo_shifted s n hstart
  rw [Nat.zero_add] at hdraw
  exact hdraw

end Sys2Proof.Machine
end

section
/-! PROOFS. SETCP and what a comparator says from then on: a predicate bit reads its comparator and its counter as they stand, and
the limit is the value of issue (R124, R183). -/
namespace Sys2Proof.Machine

/-! ### Fields within fields -/

/-- A field that lies within a field is the field of the whole at the sum of the two offsets. -/
theorem bitsN_bitsN (x lo : Nat) {w i n : Nat} (h : i + n ≤ w) : bitsN (bitsN x lo w) i n = bitsN x (lo + i) n := by
  have hsplit : 2 ^ w = 2 ^ i * 2 ^ (w - i) := by rw [← Nat.pow_add, Nat.add_sub_cancel' (by omega)]
  have hdvd : 2 ^ n ∣ 2 ^ (w - i) := Nat.pow_dvd_pow 2 (by omega)
  unfold bitsN
  rw [hsplit, Nat.mod_mul_right_div_self, Nat.mod_mod_of_dvd _ hdvd, Nat.div_div_eq_div_mul, ← Nat.pow_add]

/-- The low bits of a field are the shorter field at its offset. -/
theorem bitsN_mod_two_pow (x lo : Nat) {w n : Nat} (h : n ≤ w) : bitsN x lo w % 2 ^ n = bitsN x lo n :=
  Nat.mod_mod_of_dvd _ (Nat.pow_dvd_pow 2 h)

/-- A bit within a field is the bit of the whole at the sum of the two offsets. -/
theorem bitN_bitsN (x lo : Nat) {w i : Nat} (h : i < w) : bitN (bitsN x lo w) i = bitN x (lo + i) := by
  have hfield : bitsN (bitsN x lo w) i 1 = bitsN x (lo + i) 1 := bitsN_bitsN x lo h
  exact congrArg (fun b : Nat => decide (b = 1)) hfield

/-! ### Counter fields that issue -/

/-- No counter of a ready field is awaited, so its slot does not wait (R185, R257). -/
theorem counterWait_of_ready {x : Tile} {cl : Clause} (h : CounterReady x cl) :
    counterWait x (slotField 0 cl.word) = .go := by
  unfold counterWait
  refine if_neg fun hany => ?_
  obtain ⟨w, hw, hc⟩ := List.any_eq_true.mp hany
  exact h w hw (List.contains_iff_mem.mp hc)

/-- A ready counter field issues, and changes its tile where it acts. -/
theorem State.counterVerb_of_canIssue {s : State} {p : Place} {verb : Nat} {cl : Clause} (op : Nat → Tile → Tile)
    (hi : s.CanIssue p 0 verb cl) (hr : CounterReady (s.at_ p) cl) :
    s.counterVerb p verb op =
      if cl.acts 0 p.tile.val (s.at_ p) then
        (s.issued p 0 cl).setTile p.cl.val p.tile.val (op (slotField 0 cl.word) ((s.issued p 0 cl).at_ p))
      else s.issued p 0 cl :=
  State.issueAs_go hi (counterWait_of_ready hr)

/-- Issuing a field moves no counter. -/
theorem State.issued_counter (s : State) (p : Place) (slot : Nat) (cl : Clause) (n : Nat) :
    ((s.issued p slot cl).at_ p).counter n = (s.at_ p).counter n := by
  rw [State.issued_at]
  rfl

/-! ### Comparators (R124, R183) -/

/-- The comparator that a counter field names, with its limit (R183). -/
def setcpOf (f : Nat) (limit : Word) : Cmp :=
  { ctr := bitsN f 20 3, limit := limit, rel := bitsN f 17 2, signed := bitN f 19 }

/-- SETCP's comparator by the bits of its field: the operands of the model are fields within CDST and IMM7 (R183). -/
theorem setcpOf_operands (f : Nat) (limit : Word) :
    { ctr := bitsN (imm7 f) 3 3, limit := limit, rel := imm7 f % 4, signed := bitN (imm7 f) 2 } = setcpOf f limit := by
  have hctr : bitsN (imm7 f) 3 3 = bitsN f 20 3 := bitsN_bitsN f 17 (by decide)
  have hrel : imm7 f % 4 = bitsN f 17 2 := bitsN_mod_two_pow f 17 (n := 2) (by decide)
  have hsigned : bitN (imm7 f) 2 = bitN f 19 := bitN_bitsN f 17 (by decide)
  rw [hctr, hrel, hsigned, setcpOf]

/-- SETCP sets comparator CDST[1:0], whatever CDST[2] is (R183). -/
theorem exec_setcp (p : Place) (s : State) :
    exec (.setcp p) s = .next (s.counterVerb p 0x11 (fun f t =>
      { t with cp := Tbl.set (bitsN f 5 2) (setcpOf f (t.counter (bitsN f 8 3))) t.cp })) := by
  have hdst (f : Nat) : cdst f % 4 = bitsN f 5 2 := bitsN_mod_two_pow f 5 (n := 2) (by decide)
  show execSetcp p s = _
  simp only [execSetcp, hdst, setcpOf_operands, csrc]

/-- What the relation codes compute is the comparison they name (R124, R183). -/
theorem compares_relHolds (rel : Nat) (signed : Bool) (a b : Word) : Compares rel signed a b (relHolds rel signed a b) := by
  refine ⟨?_, ?_, ?_, ?_, ?_, ?_⟩
  · rintro rfl rfl; exact BitVec.ult_iff_lt
  · rintro rfl rfl; exact BitVec.slt_iff_toInt_lt
  · rintro rfl rfl; exact BitVec.ule_iff_le
  · rintro rfl rfl; exact BitVec.sle_iff_toInt_le
  · rintro rfl; exact beq_iff_eq
  · rintro rfl; exact bne_iff_ne

/-- A predicate bit is the comparison of its comparator, on the counter as it stands (R124). -/
theorem Tile.pred_compares (x : Tile) (n : Nat) :
    Compares (x.cmp n).rel (x.cmp n).signed (x.counter (x.cmp n).ctr) (x.cmp n).limit (x.pred n) :=
  compares_relHolds ..

/-- A tile whose comparators are a table with one entry set reads that entry as its comparator. -/
theorem Tile.cmp_of_set {y : Tile} {n : Nat} {c : Cmp} {t : Tbl Cmp} (h : y.cp = Tbl.set n c t) : y.cmp n = c := by
  rw [Tile.cmp, h, Tbl.get_set_same]

/-- Settles O3: SETCP leaves its comparator in the table, and a predicate bit reads nothing else but the counter compared. -/
theorem comparators : Obligations.Comparators := by
  unfold Obligations.Comparators
  refine ⟨Tile.pred_compares, fun s p cl hi hr ha => ?_⟩
  refine ⟨_, exec_setcp p s, fun y hy => ?_⟩
  rw [State.counterVerb_of_canIssue _ hi hr, if_pos ha, State.at_, State.tile_setTile_same] at hy
  have hcmp : y.cmp (bitsN (slotField 0 cl.word) 5 2) =
      setcpOf (slotField 0 cl.word) ((s.at_ p).counter (bitsN (slotField 0 cl.word) 8 3)) := by
    rw [Tile.cmp_of_set hy, State.issued_counter]
  have hpred := y.pred_compares (bitsN (slotField 0 cl.word) 5 2)
  rw [hcmp] at hpred
  exact hpred

end Sys2Proof.Machine
end

section
/-! PROOFS. A span frame whose tag fails: what such a frame leaves of its port, and that whatever the loss of a link brings about
on the die only adds frames to the replay buffers (R439, R509, R510, R512). -/
namespace Sys2Proof.Machine

/-! ### A span port that goes on -/

/-- A span port that is as far as it was: in its state, with its count of failed tags and the SEQ it expects, and nothing has left
its replay buffer. -/
structure Span.Kept (x y : Span) : Prop where
  st : y.st = x.st
  auth : y.auth = x.auth
  expSeq : y.expSeq = x.expSeq
  replays : x.replays <+: y.replays

/-- A span port whose link is lost (R512). -/
def Span.lost (x : Span) : Span := { x with st := 7 }

namespace Span.Kept
variable {x y z : Span}

theorem refl (x : Span) : x.Kept x := ⟨rfl, rfl, rfl, [], List.append_nil _⟩

theorem trans (h : x.Kept y) (g : y.Kept z) : x.Kept z :=
  ⟨g.st.trans h.st, g.auth.trans h.auth, g.expSeq.trans h.expSeq, h.replays.trans g.replays⟩

/-- A frame that goes out joins the replay buffer at its end (R509). -/
theorem transmit (x : Span) : x.Kept x.transmit := ⟨rfl, rfl, rfl, _, rfl⟩

/-- What is kept of a port does not hang on the state that it enters then. -/
theorem lost (h : x.Kept y) : x.lost.Kept y.lost := ⟨rfl, h.auth, h.expSeq, h.replays⟩

end Span.Kept

/-- Every span port goes on from one state to another. -/
def State.SpansKept (s t : State) : Prop := ∀ p, (s.spanOf p).Kept (t.spanOf p)

namespace State.SpansKept
variable {s t u : State}

theorem refl (s : State) : s.SpansKept s := fun p => .refl (s.spanOf p)

/-- A change that leaves the span ports alone. -/
theorem of_span (h : s.SpansKept t) (e : u.span = t.span) : s.SpansKept u := fun p => by
  simpa only [State.spanOf, e] using h p

theorem ite {c : Prop} [Decidable c] (h : s.SpansKept t) (g : s.SpansKept u) : s.SpansKept (if c then t else u) := by
  split
  · exact h
  · exact g

theorem each {l : List Nat} {f : State → Nat → State} (h : s.SpansKept t) (hf : ∀ {u i}, s.SpansKept u → s.SpansKept (f u i)) :
    s.SpansKept (t.each l f) := State.each_keeps s.SpansKept f (fun _ _ => hf) l t h

theorem foldl {α : Type} {l : List α} {f : State → α → State} (h : s.SpansKept t)
    (hf : ∀ {u x}, s.SpansKept u → s.SpansKept (f u x)) : s.SpansKept (l.foldl f t) :=
  foldl_keeps s.SpansKept f (fun _ _ => hf) l t h

theorem onSpan {p : Nat} {f : Span → Span} (h : s.SpansKept t) (hf : ∀ x : Span, x.Kept (f x)) : s.SpansKept (t.onSpan p f) := by
  intro q
  by_cases hq : q = p
  · subst hq
    rw [State.spanOf_onSpan_same]
    exact (h q).trans (hf _)
  · rw [State.spanOf_onSpan_ne _ _ _ hq]
    exact h q

/-- A message to another die goes out as a frame of its own (R507). -/
theorem send {die : Nat} {m : LMsg} (h : s.SpansKept t) : s.SpansKept (t.send die m) := by
  have queued : s.SpansKept { t with linkOut := t.linkOut ++ [(die, m)] } := h.of_span rfl
  unfold State.send
  dsimp only
  split
  · exact queued
  · exact queued.onSpan .transmit

/-! ### Runs that stop (R288, R294) -/

theorem haltCluster {c : Nat} (h : s.SpansKept t) : s.SpansKept (t.haltCluster c) := by
  have halted : s.SpansKept (t.each t.tilesOf (fun u i => u.onTile c i Tile.halt)) := h.each (·.of_span rfl)
  exact halted.of_span rfl

theorem stopRun {k : Nat} {x : Task} {cause : EndCause} (h : s.SpansKept t) : s.SpansKept (t.stopRun k x cause) := by
  unfold State.stopRun
  exact each (h.of_span rfl) haltCluster

theorem abortOne {k : Nat} {cause : EndCause} (h : s.SpansKept t) : s.SpansKept (t.abortOne k cause) := by
  unfold State.abortOne
  split
  · exact h
  · split
    · exact h
    · exact h
    · exact h.of_span rfl
    · exact h.stopRun.foldl send
    · exact h.of_span rfl
    · exact h.of_span rfl

theorem abortRun {k : Nat} {cause : EndCause} (h : s.SpansKept t) : s.SpansKept (t.abortRun k cause) := by
  unfold State.abortRun
  exact h.abortOne.foldl abortOne

/-! ### Objects and contexts (R299, R305, R306) -/

theorem settleObj {slot : Nat} (h : s.SpansKept t) : s.SpansKept (t.settleObj slot) := by
  unfold State.settleObj
  exact .ite (h.of_span rfl) h

theorem dropObj {slot : Nat} {st : ObjSt} (h : s.SpansKept t) : s.SpansKept (t.dropObj slot st) := by
  unfold State.dropObj
  exact .ite (settleObj (h.of_span rfl)) h

theorem dropRefs {slots : List Nat} (h : s.SpansKept t) : s.SpansKept (t.dropRefs slots) := by
  unfold State.dropRefs
  exact h.each fun g => settleObj (g.of_span rfl)

theorem freeOwned {id : BitVec 12} (h : s.SpansKept t) : s.SpansKept (t.freeOwned id) := by
  unfold State.freeOwned
  exact h.foldl dropObj

theorem settleCtx {id : BitVec 12} (h : s.SpansKept t) : s.SpansKept (t.settleCtx id) := by
  unfold State.settleCtx
  extract_lets k busy u x
  have hu : s.SpansKept u := .ite h.freeOwned h
  clear_value u x
  have idle : s.SpansKept (u.each (u.queuesOf id) fun v q => v.onQueue q HostQ.toIdle) := hu.each (·.of_span rfl)
  refine .ite hu (.ite (.ite (each ?_ (·.of_span rfl)) ?_) (.ite (idle.of_span rfl) hu))
  · exact hu.of_span rfl
  · exact hu.of_span rfl

/-! ### Tasks that retire (R306, R318, R321) -/

theorem tellIdle {c : Nat} (h : s.SpansKept t) : s.SpansKept (t.tellIdle c) := by
  unfold State.tellIdle
  exact .ite (h.foldl send) h

theorem leaveCluster {k c : Nat} (h : s.SpansKept t) : s.SpansKept (t.leaveCluster k c) := by
  unfold State.leaveCluster
  split
  · exact h.of_span rfl
  · exact tellIdle (h.of_span rfl)

theorem freeClusters {k : Nat} (h : s.SpansKept t) : s.SpansKept (t.freeClusters k) := by
  unfold State.freeClusters
  exact (h.each leaveCluster).each fun g => .ite (g.of_span rfl) g

theorem unresolve {k : Nat} {x : Task} (h : s.SpansKept t) : s.SpansKept (t.unresolve k x) := by
  unfold State.unresolve
  extract_lets u
  have hu : s.SpansKept u := h.foldl fun g => settleObj (g.of_span rfl)
  exact hu.foldl fun g => .ite (g.of_span rfl) g

theorem post {x : Task} {status : Nat} (h : s.SpansKept t) : s.SpansKept (t.post x status) := by
  unfold State.post
  exact .ite h (h.of_span rfl)

theorem endUrgent {q part : Nat} (h : s.SpansKept t) : s.SpansKept (t.endUrgent q part) := by
  unfold State.endUrgent
  exact .ite (h.foldl send) h

theorem ungather {q : Nat} (h : s.SpansKept t) : s.SpansKept (t.ungather q) := by
  unfold State.ungather
  extract_lets u v
  have hu : s.SpansKept u := h.each fun g => .ite (g.of_span rfl) g
  have hv : s.SpansKept v := hu.foldl fun g => .ite g g.send
  clear_value v
  exact hv.of_span rfl

theorem freeScratch {x : Task} (h : s.SpansKept t) : s.SpansKept (t.freeScratch x) := by
  unfold State.freeScratch
  refine h.foldl fun g => ?_
  extract_lets u
  have hu : s.SpansKept u := g.foldl fun k => .ite (k.of_span rfl) k
  exact hu.of_span rfl

theorem tellEnd {x : Task} (h : s.SpansKept t) : s.SpansKept (t.tellEnd x) := by
  unfold State.tellEnd
  exact .ite (h.foldl send) h

theorem retire {k status : Nat} (h : s.SpansKept t) : s.SpansKept (t.retire k status) := by
  unfold State.retire
  split
  · exact h
  · extract_lets told resolved gone freed posted dropped left removed counted
    have hresolved : s.SpansKept resolved := unresolve (.ite h.freeScratch.tellEnd h)
    have hfreed : s.SpansKept freed := freeClusters (hresolved.of_span rfl)
    have hdropped : s.SpansKept dropped := hfreed.post.dropRefs
    have hleft : s.SpansKept left := .ite hdropped.endUrgent.ungather hdropped
    exact .ite (settleCtx (hleft.of_span rfl)) hfreed.dropRefs

/-! ### Contexts and dies that are lost (R323, R439, R440) -/

theorem loseCtx {id : BitVec 12} {cause : Nat} {teardown : Bool} {except : List Nat} (h : s.SpansKept t) :
    s.SpansKept (t.loseCtx id cause teardown except) := by
  unfold State.loseCtx
  extract_lets k x due lost drained mine aborted pending retired freed
  have hdrained : s.SpansKept drained := each (h.of_span rfl) (·.of_span rfl)
  have hretired : s.SpansKept retired := (hdrained.each abortRun).each retire
  exact .ite h (settleCtx (.ite hretired.freeOwned hretired))

theorem endTooLarge (h : s.SpansKept t) : s.SpansKept t.endTooLarge := by
  unfold State.endTooLarge
  exact h.foldl fun g => g.retire.loseCtx

theorem loseDie {die : Nat} (h : s.SpansKept t) : s.SpansKept (t.loseDie die) := by
  unfold State.loseDie
  extract_lets noted hit ours theirs
  have hours : s.SpansKept ours := foldl (h.of_span rfl) fun g => loseCtx (.ite g.retire g.abortRun)
  exact .ite h (hours.foldl abortRun).endTooLarge

/-! ### Requests that wait for a link (R512) -/

theorem settleAcc {key id : Nat} (h : s.SpansKept t) : s.SpansKept (t.settleAcc key id) := by
  unfold State.settleAcc
  extract_lets x
  split
  · exact h
  · exact .ite (h.of_span rfl) h

theorem dropWaiting {link : Nat} (h : s.SpansKept t) : s.SpansKept (t.dropWaiting link) := by
  unfold State.dropWaiting
  extract_lets hit ks kept answered seam counted aborted
  have hanswered : s.SpansKept answered := foldl (h.of_span rfl) (·.of_span rfl)
  have hcounted : s.SpansKept counted :=
    .ite (hanswered.of_span rfl) (hanswered.onSpan fun _ => ⟨rfl, rfl, rfl, [], List.append_nil _⟩)
  exact (hcounted.foldl abortRun).foldl settleAcc

end State.SpansKept

/-- A span port whose link is lost enters LOST, and whatever else the loss brings about keeps it (R439, R512). -/
theorem State.loseLink_spanOf (s : State) {p : Nat} (hp : p ≠ 2) : (s.spanOf p).lost.Kept ((s.loseLink p).spanOf p) := by
  have hdropped : s.SpansKept (s.dropWaiting p) := (SpansKept.refl s).dropWaiting
  unfold State.loseLink
  extract_lets dropped seam lost
  have hlost : lost.spanOf p = (dropped.spanOf p).lost := by
    simp only [lost, if_neg hp, State.spanOf_onSpan_same, Span.lost]
  have hrest : lost.SpansKept (if lost.anyRoute then lost else lost.knownDies.foldl State.loseDie lost) :=
    .ite (.refl lost) ((SpansKept.refl lost).foldl .loseDie)
  refine .trans ?_ (hrest p)
  rw [hlost]
  exact (hdropped p).lost

/-! ### Changes of one span port -/

theorem Tbl.set_set {α : Type} (k : Nat) (v w : α) (t : Tbl α) : Tbl.set k v (Tbl.set k w t) = Tbl.set k v t := by
  induction t with
  | nil => simp [Tbl.set]
  | cons p r ih =>
    obtain ⟨a, x⟩ := p
    by_cases hlt : k < a
    · simp [Tbl.set, hlt]
    · by_cases heq : k = a
      · simp [Tbl.set, heq]
      · simp [Tbl.set, hlt, heq, ih]

theorem State.onSpan_onSpan (s : State) (p : Nat) (f g : Span → Span) : (s.onSpan p f).onSpan p g = s.onSpan p (fun x => g (f x)) := by
  rw [State.onSpan, State.spanOf_onSpan_same]
  simp only [State.onSpan, Tbl.set_set]

theorem State.onSpan_congr {s : State} {p : Nat} {f g : Span → Span} (h : f (s.spanOf p) = g (s.spanOf p)) :
    s.onSpan p f = s.onSpan p g := by
  rw [State.onSpan, h, State.onSpan]

/-! ### A frame whose tag fails (R510) -/

/-- One more failed tag, counted in AUTH. -/
def State.countTag (s : State) (p : Nat) : State := s.onSpan p (fun x => { x with auth := x.auth + 1 })

/-- A failed tag at an ACTIVE port: the fourth loses the link, one before it retrains it (R510). -/
theorem exec_spanFrameReceive_badTag {s : State} {port : Fin 2} (hp : s.hasSpan port.val = true) (hst : (s.spanOf port.val).st = 5)
    (hauth : (s.spanOf port.val).auth < 15) (heads : List (BitVec 64)) (seq ack : BitVec 12) :
    exec (.spanFrameReceive port .badTag heads seq ack) s = .next (if 4 ≤ (s.spanOf port.val).auth + 1 then
      (s.countTag port.val).loseLink port.val else (s.countTag port.val).retrainSpan port.val) := by
  have hcount : s.onSpan port.val (fun x => { x with auth := satTo 15 (x.auth + 1) }) = s.countTag port.val := by
    refine State.onSpan_congr ?_
    have hsat : satTo 15 ((s.spanOf port.val).auth + 1) = (s.spanOf port.val).auth + 1 := if_neg (by omega)
    simp only [hsat]
  have hread : ((s.countTag port.val).spanOf port.val).auth = (s.spanOf port.val).auth + 1 := by
    rw [State.countTag, State.spanOf_onSpan_same]
  show execSpanFrameReceive port .badTag heads seq ack s = _
  simp only [execSpanFrameReceive, hp, hst, hcount, hread]
  rfl

/-- Settles O53: before the fourth failed tag the port alone changes; at the fourth, whatever the loss of the link brings about keeps
the count, the SEQ expected and the frames in the replay buffer. -/
theorem tagFails : Obligations.TagFails := by
  unfold Obligations.TagFails
  intro s port heads seq ack p x hp hst hauth
  refine ⟨_, exec_spanFrameReceive_badTag hp hst hauth heads seq ack, ?_⟩
  by_cases hfew : x.auth + 1 < 4
  · rw [if_neg (Nat.not_le.mpr hfew), if_pos hfew, State.retrainSpan, State.countTag, State.onSpan_onSpan, State.spanOf_onSpan_same]
    exact ⟨rfl, rfl, ⟨[], (List.append_nil _).symm⟩, rfl, fun _ => rfl⟩
  · have hlost := (s.countTag p).loseLink_spanOf (p := p) (Nat.ne_of_lt port.isLt)
    rw [State.countTag, State.spanOf_onSpan_same] at hlost
    obtain ⟨l, hl⟩ := hlost.replays
    rw [if_pos (Nat.not_lt.mp hfew), if_neg hfew]
    exact ⟨hlost.auth, hlost.expSeq, ⟨l, hl.symm⟩, hlost.st, fun h => absurd h hfew⟩

end Sys2Proof.Machine
end

section
/-! PROOFS. Broadcast and group modes: of any accessor but the management endpoint a read answers 0 and a write changes nothing, and
the endpoint's write of TILE_HEALTH.CLEAR clears the tiles it can reach and counts the others (R342, R520 to R522, R531). -/
namespace Sys2Proof.Machine

/-! ### Who is admitted to the modes of the control space (R520) -/

/-- The accessors other than the endpoint are masters. -/
theorem ne_mgmt_of_ne_endpoint {who : Fin 4097} (h : who ≠ endpoint) : who.val ≠ mgmt :=
  fun hval => h (Fin.ext hval)

/-- A bad access of a master is recorded nowhere (R342). -/
theorem State.badAccess_of_master {who : Nat} (h : who ≠ mgmt) (s : State) (a cause : Nat) : s.badAccess who a cause = s :=
  if_neg h

/-- A master's read in broadcast or group mode answers 0 and leaves the state. -/
theorem State.ctlRead_of_master (s : State) {who : Nat} (h : who ≠ mgmt) {addr : BitVec 26}
    (hm : modeOf addr.toNat = 1 ∨ modeOf addr.toNat = 2) : s.ctlRead who addr = (0, s) := by
  have h3 : modeOf addr.toNat ≠ 3 := by omega
  have h0 : modeOf addr.toNat ≠ 0 := by omega
  simp only [State.ctlRead, State.badAccess_of_master h, if_neg h3, if_neg h0, ite_self]

/-- A master's write outside die-global mode leaves the state. -/
theorem State.ctlWrite_of_master (s : State) {who : Nat} (h : who ≠ mgmt) {addr : BitVec 26} (h3 : modeOf addr.toNat ≠ 3)
    (sess : Option Nat) (val : Word) : s.ctlWrite who sess addr val = s := by
  simp only [State.ctlWrite, State.badAccess_of_master h, if_neg h3, if_pos h, ite_self]

/-- The address of a command in a mode: the mode above the 24 bits of the address. -/
theorem withMode_toNat (addr : BitVec 26) {mode : Nat} (h : mode < 4) :
    (withMode addr mode).toNat = addr.toNat % 2 ^ 24 + mode * 2 ^ 24 := by
  rw [withMode, BitVec.toNat_ofNat]
  omega

/-- The address of a command that is given by its offset. -/
theorem withMode_ofNat_toNat {off mode : Nat} (hoff : off < 2 ^ 24) (h : mode < 4) :
    (withMode (BitVec.ofNat 26 off) mode).toNat = off + mode * 2 ^ 24 := by
  rw [withMode_toNat _ h, BitVec.toNat_ofNat]
  omega

/-- The address of a command in a mode has that mode. -/
theorem modeOf_withMode (addr : BitVec 26) {mode : Nat} (h : mode < 4) : modeOf (withMode addr mode).toNat = mode := by
  rw [withMode_toNat addr h, modeOf, bitsN]
  omega

/-- A master's BROADCAST_WRITE leaves the state. -/
theorem exec_broadcastWrite_of_master {who : Fin 4097} (h : who ≠ endpoint) (addr : BitVec 26) (val : Word) (s : State) :
    exec (.broadcastWrite who addr val) s = .next s := by
  have hmode : modeOf (withMode addr 1).toNat ≠ 3 := by rw [modeOf_withMode addr (by decide)]; decide
  exact congrArg Host.Outcome.next (s.ctlWrite_of_master (ne_mgmt_of_ne_endpoint h) hmode none val)

/-- A master's GROUP_WRITE leaves the state. -/
theorem exec_groupWrite_of_master {who : Fin 4097} (h : who ≠ endpoint) (addr : BitVec 26) (val : Word) (s : State) :
    exec (.groupWrite who addr val) s = .next s := by
  have hmode : modeOf (withMode addr 2).toNat ≠ 3 := by rw [modeOf_withMode addr (by decide)]; decide
  exact congrArg Host.Outcome.next (s.ctlWrite_of_master (ne_mgmt_of_ne_endpoint h) hmode none val)

/-! ### The same accesses as commands of a front port -/

/-- A command that a front port takes runs on the state with its master's heartbeat refreshed, and its answer is queued (R334 to
R338). -/
theorem State.command_of_taken {s : State} {port : Fin 4} {b : CmdBeat} {nwd : Nat} (h : Taken s port b nwd) (op : Nat)
    {fieldsOk : Bool} (hok : fieldsOk = true) (run : State → Ans × State) :
    s.command port.val op nwd b fieldsOk run =
      (run (heard s b)).2.queueCmd port.val op b (some (run (heard s b)).1) none := by
  obtain ⟨hserves, hscrub, hhung, hroom, hport, hnwd⟩ := h
  have htakes : s.takes port.val = true := by
    have hserving : s.serving = true := by rw [State.serving, hserves, hscrub]; rfl
    have hawaiting : (s.port port.val).awaiting < 1024 := hroom
    rw [State.takes, hserving, hhung, decide_eq_true hawaiting]
    rfl
  have hchecked : ¬ (b.nwd.toNat ≠ nwd || !fieldsOk) = true := by simp [hnwd, hok]
  rw [State.command, htakes]
  exact (if_neg Bool.false_ne_true).trans ((if_neg (not_not_intro hport)).trans (if_neg hchecked))

/-- The state after a command whose run answers with STATUS 0. -/
theorem queueCmd_ok (u : State) (port : Fin 4) (op : Nat) (b : CmdBeat) (result : Nat) :
    u.queueCmd port.val op b (some (u.ok result).1) none = answered u port op b 0x00 result := rfl

/-- An address whose bits 1:0 are 0 passes the check of a command's fields (R344). -/
theorem arg0_aligned {x : BitVec 64} (h : x.toNat % 4 = 0) : (x.truncate 2 == (0 : BitVec 2)) = true :=
  beq_iff_eq.mpr (BitVec.eq_of_toNat_eq ((BitVec.toNat_setWidth _ _).trans h))

/-- The address of a command is the low 26 bits of ARG0. -/
theorem arg0_addr {x : BitVec 64} {addr : BitVec 26} (h : x.toNat % 2 ^ 26 = addr.toNat) : x.truncate 26 = addr :=
  BitVec.eq_of_toNat_eq ((BitVec.toNat_setWidth _ _).trans h)

/-- A CTL_RD that a port takes is answered with what the access reads (R342). -/
theorem exec_ctlRd_of_taken {s : State} {port : Fin 4} {b : CmdBeat} (h : Taken s port b 0) {addr : BitVec 26}
    (haddr : b.arg0.toNat % 2 ^ 26 = addr.toNat) (hal : b.arg0.toNat % 4 = 0) :
    exec (.ctlRd port b) s = .next (answered ((heard s b).ctlRead b.mid.toNat addr).2 port 0x40 b 0x00
      ((heard s b).ctlRead b.mid.toNat addr).1.toNat) := by
  refine congrArg Host.Outcome.next ?_
  rw [State.command_of_taken h 0x40 (arg0_aligned hal), arg0_addr haddr]
  exact queueCmd_ok ..

/-- A CTL_WR that a port takes is answered with 0, whatever the access does (R342). -/
theorem exec_ctlWr_of_taken {s : State} {port : Fin 4} {b : CmdBeat} (h : Taken s port b 0) {addr : BitVec 26}
    (haddr : b.arg0.toNat % 2 ^ 26 = addr.toNat) (hal : b.arg0.toNat % 4 = 0) :
    exec (.ctlWr port b) s =
      .next (answered ((heard s b).ctlWrite b.mid.toNat none addr (b.arg1.truncate 32)) port 0x41 b 0x00 0) := by
  refine congrArg Host.Outcome.next ?_
  rw [State.command_of_taken h 0x41 (arg0_aligned hal), arg0_addr haddr]
  exact queueCmd_ok ..

/-! ### Clearing the counts of tiles (R531) -/

/-- A tile's silicon with its protection counts cleared. -/
def TileHw.uncounted (h : TileHw) : TileHw := { h with corr := 0, csum := 0, detect := 0 }

theorem State.silicon_clearHealth_same (s : State) (k : Nat) : (s.clearHealth k).silicon k = (s.silicon k).uncounted :=
  Tbl.get_set_same ..

theorem State.silicon_clearHealth_ne (s : State) {j k : Nat} (h : j ≠ k) : (s.clearHealth k).silicon j = s.silicon j :=
  Tbl.get_set_ne _ _ _ h

/-- Tiles of the clusters have keys of their own. -/
theorem tileKey_inj {c d i j : Nat} (hi : i < 17) (hj : j < 17) (h : c * 17 + i = d * 17 + j) : (c, i) = (d, j) := by
  have hc : c = d := by omega
  have hij : i = j := by omega
  rw [hc, hij]

/-- TILE_HEALTH.CLEAR of one target: a tile that can be reached has its counts cleared, another is counted as skipped (R521). -/
theorem State.writeTarget_tileHealthClear (p : State × Nat) {t : Nat × Nat} (ht : t.2 < 17) :
    State.writeTarget 0x24 1 p t =
      if p.1.unusable t.1 t.2 then (p.1, p.2 + 1) else (p.1.clearHealth (t.1 * 17 + t.2), p.2) := by
  have hreg : localRegAt t.2 0x24 = some .tileHealthClear := by
    have hle : decide (t.2 ≤ 16) = true := decide_eq_true (by omega)
    rw [localRegAt, hle]
    rfl
  rw [State.writeTarget, hreg]
  rfl

/-- Only silicon differs between two states, and it differs in the counts of the tiles of a list that can be reached, which are
cleared. -/
structure State.Cleared (s t : State) (tiles : List (Nat × Nat)) : Prop where
  frame : t = { s with hw := t.hw }
  silicon : ∀ c i, i < 17 → t.silicon (c * 17 + i) =
    if (c, i) ∈ tiles ∧ s.unusable c i = false then (s.silicon (c * 17 + i)).uncounted else s.silicon (c * 17 + i)

theorem State.cleared_nil (s : State) : s.Cleared s [] :=
  ⟨rfl, fun _ _ _ => (if_neg fun h => List.not_mem_nil h.1).symm⟩

/-- A tile that cannot be reached is left alone, whether it is listed or not. -/
theorem State.Cleared.cons_unusable {s u : State} {tile : Nat × Nat} {tiles : List (Nat × Nat)} (h : s.Cleared u tiles)
    (hu : s.unusable tile.1 tile.2 = true) : s.Cleared u (tile :: tiles) := by
  refine ⟨h.frame, fun c i hi => ?_⟩
  have hiff : ((c, i) ∈ tiles ∧ s.unusable c i = false) ↔ ((c, i) ∈ tile :: tiles ∧ s.unusable c i = false) := by
    refine and_congr_left fun hci => ?_
    have hne : (c, i) ≠ tile := by rintro rfl; rw [hci] at hu; cases hu
    rw [List.mem_cons, or_iff_right hne]
  exact (h.silicon c i hi).trans (ite_congr (propext hiff) (fun _ => rfl) (fun _ => rfl))

/-- A tile that can be reached is cleared before the others of a list. -/
theorem State.Cleared.cons_usable {s u : State} {tile : Nat × Nat} {tiles : List (Nat × Nat)} (ht : tile.2 < 17)
    (hu : s.unusable tile.1 tile.2 = false) (h : (s.clearHealth (tile.1 * 17 + tile.2)).Cleared u tiles) :
    s.Cleared u (tile :: tiles) := by
  refine ⟨h.frame, fun c i hi => (h.silicon c i hi).trans ?_⟩
  by_cases hsame : (c, i) = tile
  · subst hsame
    rw [State.silicon_clearHealth_same]
    exact (ite_self _).trans (if_pos ⟨List.mem_cons_self, hu⟩).symm
  · rw [State.silicon_clearHealth_ne s fun hkey => hsame (tileKey_inj hi ht hkey)]
    have hmem : (c, i) ∈ tiles ↔ (c, i) ∈ tile :: tiles := by rw [List.mem_cons, or_iff_right hsame]
    exact ite_congr (propext (and_congr_left fun _ => hmem)) (fun _ => rfl) (fun _ => rfl)

/-- TILE_HEALTH.CLEAR of a list of targets clears those that can be reached and counts the others (R521). -/
theorem State.foldl_writeTarget_cleared {tiles : List (Nat × Nat)} (h : ∀ t ∈ tiles, t.2 < 17) (s : State) (n : Nat) :
    ∃ u, tiles.foldl (State.writeTarget 0x24 1) (s, n) = (u, n + tiles.countP (fun t => s.unusable t.1 t.2)) ∧
      s.Cleared u tiles := by
  induction tiles generalizing s n with
  | nil => exact ⟨s, rfl, s.cleared_nil⟩
  | cons tile tiles ih =>
    obtain ⟨ht, htiles⟩ := List.forall_mem_cons.mp h
    rw [List.foldl_cons, State.writeTarget_tileHealthClear _ ht, List.countP_cons]
    cases hu : s.unusable tile.1 tile.2 with
    | true =>
      obtain ⟨u, hfold, hcleared⟩ := ih htiles s (n + 1)
      exact ⟨u, by rw [if_pos rfl, if_pos rfl, hfold, Nat.add_right_comm, Nat.add_assoc], hcleared.cons_unusable hu⟩
    | false =>
      obtain ⟨u, hfold, hcleared⟩ := ih htiles (s.clearHealth (tile.1 * 17 + tile.2)) n
      exact ⟨u, hfold, hcleared.cons_usable ht hu⟩

/-! ### The endpoint's writes in broadcast and group mode (R521, R522) -/

/-- All tiles of the clusters named, cluster by cluster: what a write with tile field 30 addresses (R518). -/
def tilesOfNamed (named : Nat → Bool) : List (Nat × Nat) :=
  ((List.range 32).filter named).flatMap (fun c => (targetFields 30).map (fun t => (c, t)))

theorem mem_tilesOfNamed {named : Nat → Bool} {c i : Nat} :
    (c, i) ∈ tilesOfNamed named ↔ (c < 32 ∧ named c = true) ∧ i < 17 := by
  simp [tilesOfNamed, targetFields]

theorem length_tilesOfNamed_le (named : Nat → Bool) : (tilesOfNamed named).length ≤ 32 * 17 := by
  have hclusters := List.length_filter_le named (List.range 32)
  rw [List.length_range] at hclusters
  have hlength : (tilesOfNamed named).length = ((List.range 32).filter named).length * 17 := by
    rw [tilesOfNamed, List.length_flatMap]
    simp only [List.length_map, targetFields, if_pos, List.length_range, List.map_const', List.sum_replicate_nat]
  rw [hlength]
  exact Nat.mul_le_mul_right 17 hclusters

/-- How many tiles of the clusters named cannot be reached. -/
def State.unreached (s : State) (named : Nat → Bool) : Nat :=
  ((List.range 32).filter named |>.map (fun c => ((List.range 17).filter (s.unusable c)).length)).sum

theorem State.countP_tilesOfNamed (s : State) (named : Nat → Bool) :
    (tilesOfNamed named).countP (fun t => s.unusable t.1 t.2) = s.unreached named := by
  rw [tilesOfNamed, List.countP_flatMap, State.unreached]
  refine congrArg List.sum (List.map_congr_left fun c _ => ?_)
  rw [Function.comp_apply, List.countP_map, List.countP_eq_length_filter]
  rfl

/-- The tiles skipped are at most the tiles of a die. -/
theorem State.unreached_le (s : State) (named : Nat → Bool) : s.unreached named ≤ 32 * 17 := by
  rw [← s.countP_tilesOfNamed]
  exact Nat.le_trans List.countP_le_length (length_tilesOfNamed_le named)

/-- A spread write of TILE_HEALTH.CLEAR clears the tiles of the clusters that its address names (R521, R531). -/
theorem State.healthCleared_spread {s : State} {a : Nat} {named : Nat → Bool} (hfield : tileField a = 30)
    (hoff : offsetField a = 0x24) (hnamed : s.namedClusters a = (List.range 32).filter named) :
    HealthCleared s (s.spread a 1) named := by
  obtain ⟨u, hfold, hframe, hsilicon⟩ := State.foldl_writeTarget_cleared
    (fun t (ht : t ∈ tilesOfNamed named) => (mem_tilesOfNamed.mp ht).2) s 0
  rw [Nat.zero_add, s.countP_tilesOfNamed] at hfold
  have hspread : s.spread a 1 =
      { u with skipLast := satTo 65535 (s.unreached named), skipTotal := satTo 65535 (u.skipTotal + s.unreached named) } := by
    rw [State.spread, hfield, hoff, hnamed, ← tilesOfNamed]
    refine (if_neg Bool.false_ne_true).trans ?_
    dsimp only
    rw [hfold]
  have hfits : satTo 65535 (s.unreached named) = s.unreached named := if_neg (by have := s.unreached_le named; omega)
  rw [hspread, hfits, hframe]
  refine ⟨rfl, fun c i hc hi => ?_, rfl, rfl⟩
  have hmem : (c, i) ∈ tilesOfNamed named ↔ named c = true := by rw [mem_tilesOfNamed, and_iff_left hi, and_iff_right hc]
  exact (hsilicon c i hi).trans (ite_congr (propext (and_congr_left fun _ => hmem)) (fun _ => rfl) (fun _ => rfl))

/-- The endpoint's write in broadcast or group mode is spread over the clusters named (R520, R521). -/
theorem State.ctlWrite_spread {addr : BitVec 26} (hal : addr.toNat % 4 = 0) (hm : modeOf addr.toNat = 1 ∨ modeOf addr.toNat = 2)
    (hz : zerosOk addr.toNat = true) (s : State) (sess : Option Nat) (val : Word) :
    s.ctlWrite mgmt sess addr val = s.spread addr.toNat val.toNat := by
  have h3 : modeOf addr.toNat ≠ 3 := by omega
  have h0 : modeOf addr.toNat ≠ 0 := by omega
  simp [State.ctlWrite, hal, h3, h0, hz]

/-- The endpoint's write of TILE_HEALTH.CLEAR in broadcast mode goes to every cluster. -/
theorem State.healthCleared_broadcast (s : State) {addr : BitVec 26} (haddr : addr.toNat = 30 * 2 ^ 14 + 0x24 + 1 * 2 ^ 24) :
    HealthCleared s (s.ctlWrite mgmt none addr 1) (fun _ => true) := by
  rw [State.ctlWrite_spread (by omega) (.inl (by rw [haddr]; rfl)) (by rw [haddr]; rfl), haddr]
  exact State.healthCleared_spread rfl rfl rfl

/-- The endpoint's write of TILE_HEALTH.CLEAR in group mode goes to the clusters in the group's mask. -/
theorem State.healthCleared_group (s : State) {g : Nat} (h : g < 16) {addr : BitVec 26}
    (haddr : addr.toNat = g * 2 ^ 20 + 30 * 2 ^ 14 + 0x24 + 2 * 2 ^ 24) :
    HealthCleared s (s.ctlWrite mgmt none addr 1) (fun c => (Tbl.get 0 s.groups g).getLsbD c) := by
  have hmode : modeOf addr.toNat = 2 := by rw [modeOf, bitsN]; omega
  have hnot1 : modeOf addr.toNat ≠ 1 := by omega
  have hgroup : bitsN addr.toNat 20 4 = g := by rw [bitsN]; omega
  have hfield : tileField addr.toNat = 30 := by rw [tileField, bitsN]; omega
  have hoff : offsetField addr.toNat = 0x24 := by rw [offsetField, bitsN]; omega
  have hzeros : zerosOk addr.toNat = true := by
    rw [zerosOk, if_neg hnot1, bitsN]
    exact decide_eq_true (by omega)
  rw [State.ctlWrite_spread (by omega) (.inr hmode) hzeros]
  exact State.healthCleared_spread hfield hoff (by rw [State.namedClusters, if_neg hnot1, hgroup])

/-- Settles O45: a master's access ends at the mode of its address, as a command of a front port too; the endpoint's write is spread
over the tiles of the clusters it names. -/
theorem broadcastAdmits : Obligations.BroadcastAdmits := by
  unfold Obligations.BroadcastAdmits
  refine fun s => ⟨fun who addr val hwho hmode => ?_, ?_, fun g hg => ?_⟩
  · have hmaster := ne_mgmt_of_ne_endpoint hwho
    have hnot3 : modeOf addr.toNat ≠ 3 := by rw [modeOf]; omega
    refine ⟨s.ctlRead_of_master hmaster hmode, exec_broadcastWrite_of_master hwho addr val s,
      exec_groupWrite_of_master hwho addr val s, fun port b hmid haddr hal htaken => ⟨?_, ?_⟩⟩
    · rw [exec_ctlRd_of_taken htaken haddr hal, hmid, State.ctlRead_of_master _ hmaster hmode]
      rfl
    · rw [exec_ctlWr_of_taken htaken haddr hal, hmid, State.ctlWrite_of_master _ hmaster hnot3]
  · exact ⟨_, rfl, s.healthCleared_broadcast (withMode_ofNat_toNat (by decide) (by decide))⟩
  · exact ⟨_, rfl, s.healthCleared_group hg (withMode_ofNat_toNat (by omega) (by decide))⟩

end Sys2Proof.Machine
end
